-- ==== Sys2Proof/Word.lean ====
section
/-! DEFINITION. The word types: a byte, and the sparse table that holds state keyed by number. -/

namespace Sys2Proof

/-- One byte of a frame or of a disk block. -/
abbrev Byte := BitVec 8

/-- A sparse table: keys and values, keys rising. An unlisted key reads as the table's default
(where it has one) or as absent. -/
abbrev Tab (α : Type) := List (Nat × α)

/-- Node ports N0..N3. -/
abbrev PortId := Fin 4

/-- Bay links B0..B23. -/
abbrev BayId := Fin 24

end Sys2Proof
end

