-- ==== Sys2Proof/Config.lean ====
section
/-! DEFINITION. The fixed numbers of the AL24 (00_scope.md "Fixed numbers") and the one free value. -/

namespace Sys2Proof.Config

/-- Roster records (R138). -/
def rosterSize : Nat := 512
/-- Slots of the Loan Table (R18). -/
def loanSlots : Nat := 8192
/-- Entries of the claim pool (R22). -/
def poolSize : Nat := 1024
/-- Records of the Watch List (R90). -/
def watchSize : Nat := 1024
/-- Places of the Held List (R107). -/
def heldSize : Nat := 16
/-- Hold limit in seconds (R107). -/
def holdLimit : Nat := 60
/-- Transfers a bay queues (R69). -/
def bayQueueSize : Nat := 16
/-- Transfer ticks to a timeout (R75). -/
def timeoutTicks : Nat := 32
/-- Consecutive timeouts to FAILED (R76). -/
def failCount : Nat := 3
/-- Loader open timeout in seconds (R122). -/
def openTimeout : Nat := 30
/-- Reply reservations of a port (R159). -/
def replyPlaces : Nat := 448
/-- Notice places of a port (R162). -/
def noticePlaces : Nat := 64
/-- Bytes of a block (00_scope.md). -/
def blockBytes : Nat := 4096
/-- Block addresses of a bay are below this (R1). -/
def blockSpace : Nat := 2 ^ 36
/-- Largest size exponent of an extent (R1). -/
def maxExponent : Nat := 26
/-- Largest body of a lend frame (R150). -/
def maxBody : Nat := 8192
/-- Holder and queue items that fit a READ EXTENT body (R156). -/
def extentItems : Nat := 742

/-- The `n`-th open choice of the machine. The spec leaves several orders open ("need no order
among them"); each is taken from here, and nothing is known of it (assumption 5). -/
opaque freeChoice : Nat → Nat

end Sys2Proof.Config
end

