-- ==== Sys2Proof/Syntax.lean ====
section
/-! DEFINITION. The commands of the AL24: one constructor for each row of spec/opcode_table.json. -/

namespace Sys2Proof

/-- A lend frame as a port receives it (R150): every header field but version, code and check, and the
body. The code is the command's row; the frame tests of R158 have fixed version and check. Fields a code
does not read are ignored (R151). -/
structure Frame where
  kind : BitVec 8
  status : BitVec 8
  node : BitVec 16
  tag : BitVec 8
  marks : BitVec 8
  /-- bytes 8 and 9 of the header: the slot of the handle -/
  slot : BitVec 16
  /-- byte 10: the issue of the handle -/
  issue : BitVec 8
  /-- byte 11: zero in a legal handle -/
  handlePad : BitVec 8
  extent : BitVec 16
  argA : BitVec 8
  argB : BitVec 8
  offset : BitVec 32
  blockHigh : BitVec 8
  generation : BitVec 32
  units : BitVec 8
  body : List Byte
deriving DecidableEq, Repr

/-- What a bay link reports of an operation (R71). -/
inductive DiskOutcome where
  /-- success, with the data for a read (empty for a write) -/
  | success (data : List Byte)
  | mediaError
deriving DecidableEq, Repr

/-- The commands. A request row carries the arrival port and the frame. -/
inductive Instr where
  | claim (p : PortId) (f : Frame)
  | renew (p : PortId) (f : Frame)
  | downgrade (p : PortId) (f : Frame)
  | release (p : PortId) (f : Frame)
  | read (p : PortId) (f : Frame)
  | write (p : PortId) (f : Frame)
  | openRead (p : PortId) (f : Frame)
  | watch (p : PortId) (f : Frame)
  | unwatch (p : PortId) (f : Frame)
  | nodeStatus (p : PortId) (f : Frame)
  | revokeLoan (p : PortId) (f : Frame)
  | readLoan (p : PortId) (f : Frame)
  | readExtent (p : PortId) (f : Frame)
  | openLoad (p : PortId) (f : Frame)
  | stageExtent (p : PortId) (f : Frame)
  | unstageExtent (p : PortId) (f : Frame)
  | readStaged (p : PortId) (f : Frame)
  | commitLoad (p : PortId) (f : Frame)
  | discardLoad (p : PortId) (f : Frame)
  | serviceBay (p : PortId) (f : Frame)
  | serviceRead (p : PortId) (f : Frame)
  | serviceWrite (p : PortId) (f : Frame)
  | returnBay (p : PortId) (f : Frame)
  | readBay (p : PortId) (f : Frame)
  | readWatches (p : PortId) (f : Frame)
  | setFence (p : PortId) (f : Frame)
  | clearFenceHits (p : PortId) (f : Frame)
  | readFences (p : PortId) (f : Frame)
  | listHeld (p : PortId) (f : Frame)
  | releaseHeld (p : PortId) (f : Frame)
  | rejectHeld (p : PortId) (f : Frame)
  | enrollNode (p : PortId) (f : Frame)
  | setNode (p : PortId) (f : Frame)
  | barNode (p : PortId) (f : Frame)
  | unbarNode (p : PortId) (f : Frame)
  | removeNode (p : PortId) (f : Frame)
  | readNode (p : PortId) (f : Frame)
  | setLeaseClass (p : PortId) (f : Frame)
  | clockStop (p : PortId) (f : Frame)
  | clockRun (p : PortId) (f : Frame)
  | clockReset (p : PortId) (f : Frame)
  | readClock (p : PortId) (f : Frame)
  | setEventLevels (p : PortId) (f : Frame)
  | setMaskLevel (p : PortId) (f : Frame)
  | clearEvents (p : PortId) (f : Frame)
  | readEvents (p : PortId) (f : Frame)
  | lendingReset (p : PortId) (f : Frame)
  | portLinkDown (p : PortId)
  | portLinkUp (p : PortId)
  | frameLeaves (p : PortId)
  | bayLinkDown (b : BayId)
  | bayLinkUp (b : BayId) (capacity : Nat)
  | operationEndReport (b : BayId) (seq : BitVec 16) (o : DiskOutcome)
  | fullReset
  | leaseTick
  | transferTick
  | leaseExpiry (slot : Fin 8192)
  | claimWaitTimeout (e : Fin 4096)
  | holdTimeout (h : Fin 16)
  | openTimeout
  | drainLimitExpiry
  | transferTimeout (b : BayId)
  | checkCompletion
  | swap
  | entryIntoService (b : BayId)
  | issue (b : BayId)
  | loanEnd (slot : Fin 8192)
  | grantFromQueue (e : Fin 4096)
  | conversion (e : Fin 4096)
  | eventNotice
  | malformedFrame (p : PortId) (payload : List Byte)
  | unknownCodeFrame (p : PortId) (code : BitVec 8) (f : Frame)
deriving DecidableEq, Repr

end Sys2Proof
end

