-- ==== Sys2Proof/Machine/Bytes.lean ====
section
/-! DEFINITION. Bytes on the wire: byte order, the lend header, its check and the frame tests (R150, R158). -/

namespace Sys2Proof.Machine

/-- Two bytes, most significant first (R150). -/
def be16 (hi lo : Byte) : BitVec 16 := hi ++ lo

/-- Four bytes, most significant first (R150). -/
def be32 (a b c d : Byte) : BitVec 32 := (a ++ b) ++ (c ++ d)

/-- The bytes of a 16-bit field, most significant first. -/
def bytes16 (x : BitVec 16) : List Byte := [x.extractLsb' 8 8, x.extractLsb' 0 8]

/-- The bytes of a 32-bit field, most significant first. -/
def bytes32 (x : BitVec 32) : List Byte :=
  [x.extractLsb' 24 8, x.extractLsb' 16 8, x.extractLsb' 8 8, x.extractLsb' 0 8]

/-- The number some bytes hold, most significant first (item fields of R156; assumption 10). -/
def beNat (bs : List Byte) : Nat := bs.foldl (fun n b => n * 256 + b.toNat) 0

/-- `n` bytes that hold `v` modulo 256^n, most significant first (assumption 10). -/
def beBytes : Nat → Nat → List Byte
  | 0, _ => []
  | n + 1, v => BitVec.ofNat 8 (v / 256 ^ n) :: beBytes n v

/-- Byte `n` of a payload. -/
def byteAt (payload : List Byte) (n : Nat) : Byte := payload.getD n 0

/-- The 16-bit field at byte `n`. -/
def field16 (payload : List Byte) (n : Nat) : BitVec 16 := be16 (byteAt payload n) (byteAt payload (n + 1))

/-- The 32-bit field at byte `n`. -/
def field32 (payload : List Byte) (n : Nat) : BitVec 32 :=
  be32 (byteAt payload n) (byteAt payload (n + 1)) (byteAt payload (n + 2)) (byteAt payload (n + 3))

/-- The header check (R150): 2^32 - 1 minus the sum of the seven 4-byte values of bytes 0 to 27. -/
def headerCheck (header : List Byte) : BitVec 32 :=
  BitVec.allOnes 32 - (field32 header 0 + field32 header 4 + field32 header 8 + field32 header 12
    + field32 header 16 + field32 header 20 + field32 header 24)

/-- The body length field of a header. -/
def bodyLength (payload : List Byte) : Nat := (field16 payload 26).toNat

/-- The frame tests of R158: a frame that fails one is malformed and is discarded. -/
def frameOk (payload : List Byte) : Bool :=
  decide (32 ≤ payload.length)
    && decide (field32 payload 28 = headerCheck payload)
    && decide (byteAt payload 0 = 1)
    && decide (bodyLength payload ≤ Config.maxBody)
    && decide (32 + bodyLength payload ≤ payload.length)

/-- The frame a payload carries: the header's fields (R150) and the body; bytes beyond are padding. -/
def parseFrame (payload : List Byte) : Frame where
  kind := byteAt payload 1
  status := byteAt payload 3
  node := field16 payload 4
  tag := byteAt payload 6
  marks := byteAt payload 7
  slot := field16 payload 8
  issue := byteAt payload 10
  handlePad := byteAt payload 11
  extent := field16 payload 12
  argA := byteAt payload 14
  argB := byteAt payload 15
  offset := field32 payload 16
  blockHigh := byteAt payload 20
  generation := field32 payload 21
  units := byteAt payload 25
  body := (payload.drop 32).take (bodyLength payload)

/-- Bytes 0 to 27 of the header of a frame with a given code (R150), version 1. -/
def headerBytes (code : Byte) (f : Frame) : List Byte :=
  [1, f.kind, code, f.status] ++ bytes16 f.node ++ [f.tag, f.marks] ++ bytes16 f.slot
    ++ [f.issue, f.handlePad] ++ bytes16 f.extent ++ [f.argA, f.argB] ++ bytes32 f.offset
    ++ [f.blockHigh] ++ bytes32 f.generation ++ [f.units] ++ bytes16 (BitVec.ofNat 16 f.body.length)

/-- The whole payload of a frame with a given code: header, check, body (R150). -/
def frameBytes (code : Byte) (f : Frame) : List Byte :=
  headerBytes code f ++ bytes32 (headerCheck (headerBytes code f)) ++ f.body

/-- A code of the request table (R152): render codes 1 to 10, management codes 32 to 68. -/
def knownCode (code : Nat) : Bool :=
  (decide (1 ≤ code) && decide (code ≤ 10)) || (decide (32 ≤ code) && decide (code ≤ 68))

end Sys2Proof.Machine
end

