-- ==== Sys2Proof/WellFormed.lean ====
section
/-! DEFINITION. Which commands can come from outside at all: a check on each, as a term. -/

namespace Sys2Proof

/-- A frame whose body a lend header can announce (R150: body 0 to 8192 bytes). -/
def Frame.wellFormed (f : Frame) : Bool := decide (f.body.length ≤ Config.maxBody)

/-- Data a bay link can deliver: none, or one or two blocks (R71, R152). -/
def DiskOutcome.wellFormed : DiskOutcome → Bool
  | .success data =>
      decide (data.length = 0) || decide (data.length = Config.blockBytes)
        || decide (data.length = 2 * Config.blockBytes)
  | .mediaError => true

/-- A command that the rows describe: a frame that passes R158 for a request row, a payload that fails
it for MALFORMED_FRAME, a code outside R152 for UNKNOWN_CODE_FRAME. -/
def Instr.wellFormed : Instr → Bool
  | .claim _ f | .renew _ f | .downgrade _ f | .release _ f | .read _ f | .write _ f | .openRead _ f
  | .watch _ f | .unwatch _ f | .nodeStatus _ f | .revokeLoan _ f | .readLoan _ f | .readExtent _ f
  | .openLoad _ f | .stageExtent _ f | .unstageExtent _ f | .readStaged _ f | .commitLoad _ f
  | .discardLoad _ f | .serviceBay _ f | .serviceRead _ f | .serviceWrite _ f | .returnBay _ f
  | .readBay _ f | .readWatches _ f | .setFence _ f | .clearFenceHits _ f | .readFences _ f
  | .listHeld _ f | .releaseHeld _ f | .rejectHeld _ f | .enrollNode _ f | .setNode _ f | .barNode _ f
  | .unbarNode _ f | .removeNode _ f | .readNode _ f | .setLeaseClass _ f | .clockStop _ f
  | .clockRun _ f | .clockReset _ f | .readClock _ f | .setEventLevels _ f | .setMaskLevel _ f
  | .clearEvents _ f | .readEvents _ f | .lendingReset _ f => f.wellFormed
  | .portLinkDown _ | .portLinkUp _ | .frameLeaves _ | .bayLinkDown _ | .bayLinkUp _ _ => true
  | .operationEndReport _ _ o => o.wellFormed
  | .fullReset | .leaseTick | .transferTick | .leaseExpiry _ | .claimWaitTimeout _ | .holdTimeout _
  | .openTimeout | .drainLimitExpiry | .transferTimeout _ | .checkCompletion | .swap
  | .entryIntoService _ | .issue _ | .loanEnd _ | .grantFromQueue _ | .conversion _ | .eventNotice => true
  | .malformedFrame _ payload => !Machine.frameOk payload
  | .unknownCodeFrame _ code f => !Machine.knownCode code.toNat && f.wellFormed

end Sys2Proof
end

