-- ==== Sys2Proof/Decode.lean ====
section
/-! DEFINITION. From bits to commands. The table gives no row any bits, so `decodeTableWord` answers none;
`decodeFrame` reads a lend frame's payload (R150, R152, R158) into the command it is, total on any bytes,
and `encodeFrame` writes it back. -/

namespace Sys2Proof

/-- The command a word spells by the table's bits: no row of spec/opcode_table.json gives bits. -/
def decodeTableWord (_nbits _w : Nat) : Option Instr := none

/-- The row of a request code (R152); a code not in the table is an UNKNOWN_CODE_FRAME (R160). -/
def requestOf (p : PortId) (code : BitVec 8) (f : Frame) : Instr :=
  match code.toNat with
  | 1 => .claim p f
  | 2 => .renew p f
  | 3 => .downgrade p f
  | 4 => .release p f
  | 5 => .read p f
  | 6 => .write p f
  | 7 => .openRead p f
  | 8 => .watch p f
  | 9 => .unwatch p f
  | 10 => .nodeStatus p f
  | 32 => .revokeLoan p f
  | 33 => .readLoan p f
  | 34 => .readExtent p f
  | 35 => .openLoad p f
  | 36 => .stageExtent p f
  | 37 => .unstageExtent p f
  | 38 => .readStaged p f
  | 39 => .commitLoad p f
  | 40 => .discardLoad p f
  | 41 => .serviceBay p f
  | 42 => .serviceRead p f
  | 43 => .serviceWrite p f
  | 44 => .returnBay p f
  | 45 => .readBay p f
  | 46 => .readWatches p f
  | 47 => .setFence p f
  | 48 => .clearFenceHits p f
  | 49 => .readFences p f
  | 50 => .listHeld p f
  | 51 => .releaseHeld p f
  | 52 => .rejectHeld p f
  | 53 => .enrollNode p f
  | 54 => .setNode p f
  | 55 => .barNode p f
  | 56 => .unbarNode p f
  | 57 => .removeNode p f
  | 58 => .readNode p f
  | 59 => .setLeaseClass p f
  | 60 => .clockStop p f
  | 61 => .clockRun p f
  | 62 => .clockReset p f
  | 63 => .readClock p f
  | 64 => .setEventLevels p f
  | 65 => .setMaskLevel p f
  | 66 => .clearEvents p f
  | 67 => .readEvents p f
  | 68 => .lendingReset p f
  | _ => .unknownCodeFrame p code f

/-- The port, code and frame of a command that is a frame with a readable header; none for the others. -/
def Instr.asFrame : Instr → Option (PortId × BitVec 8 × Frame)
  | .claim p f => some (p, 1, f)
  | .renew p f => some (p, 2, f)
  | .downgrade p f => some (p, 3, f)
  | .release p f => some (p, 4, f)
  | .read p f => some (p, 5, f)
  | .write p f => some (p, 6, f)
  | .openRead p f => some (p, 7, f)
  | .watch p f => some (p, 8, f)
  | .unwatch p f => some (p, 9, f)
  | .nodeStatus p f => some (p, 10, f)
  | .revokeLoan p f => some (p, 32, f)
  | .readLoan p f => some (p, 33, f)
  | .readExtent p f => some (p, 34, f)
  | .openLoad p f => some (p, 35, f)
  | .stageExtent p f => some (p, 36, f)
  | .unstageExtent p f => some (p, 37, f)
  | .readStaged p f => some (p, 38, f)
  | .commitLoad p f => some (p, 39, f)
  | .discardLoad p f => some (p, 40, f)
  | .serviceBay p f => some (p, 41, f)
  | .serviceRead p f => some (p, 42, f)
  | .serviceWrite p f => some (p, 43, f)
  | .returnBay p f => some (p, 44, f)
  | .readBay p f => some (p, 45, f)
  | .readWatches p f => some (p, 46, f)
  | .setFence p f => some (p, 47, f)
  | .clearFenceHits p f => some (p, 48, f)
  | .readFences p f => some (p, 49, f)
  | .listHeld p f => some (p, 50, f)
  | .releaseHeld p f => some (p, 51, f)
  | .rejectHeld p f => some (p, 52, f)
  | .enrollNode p f => some (p, 53, f)
  | .setNode p f => some (p, 54, f)
  | .barNode p f => some (p, 55, f)
  | .unbarNode p f => some (p, 56, f)
  | .removeNode p f => some (p, 57, f)
  | .readNode p f => some (p, 58, f)
  | .setLeaseClass p f => some (p, 59, f)
  | .clockStop p f => some (p, 60, f)
  | .clockRun p f => some (p, 61, f)
  | .clockReset p f => some (p, 62, f)
  | .readClock p f => some (p, 63, f)
  | .setEventLevels p f => some (p, 64, f)
  | .setMaskLevel p f => some (p, 65, f)
  | .clearEvents p f => some (p, 66, f)
  | .readEvents p f => some (p, 67, f)
  | .lendingReset p f => some (p, 68, f)
  | .unknownCodeFrame p code f => some (p, code, f)
  | .portLinkDown _ | .portLinkUp _ | .frameLeaves _ | .bayLinkDown _ | .bayLinkUp _ _
  | .operationEndReport _ _ _ | .fullReset | .leaseTick | .transferTick | .leaseExpiry _
  | .claimWaitTimeout _ | .holdTimeout _ | .openTimeout | .drainLimitExpiry | .transferTimeout _
  | .checkCompletion | .swap | .entryIntoService _ | .issue _ | .loanEnd _ | .grantFromQueue _
  | .conversion _ | .eventNotice | .malformedFrame _ _ => none

/-- The command that a lend frame's payload arriving at a port is: MALFORMED_FRAME where a frame test of
R158 fails, otherwise the row of its code. -/
def decodeFrame (p : PortId) (payload : List Byte) : Instr :=
  if Machine.frameOk payload then requestOf p (Machine.byteAt payload 2) (Machine.parseFrame payload)
  else .malformedFrame p payload

/-- The payload of a command that is a frame. -/
def encodeFrame (i : Instr) : Option (List Byte) :=
  match i with
  | .malformedFrame _ payload => some payload
  | i => i.asFrame.map (fun x => Machine.frameBytes x.2.1 x.2.2)

end Sys2Proof
end

