-- ==== Sys2Proof/Machine/State.lean ====
section
/-! DEFINITION. The state of the AL24: one structure for each block of 00_scope.md's block diagram, as plain data. -/

namespace Sys2Proof.Machine

/-! ### Names the spec gives to states, statuses and reasons -/

/-- Reply statuses (R155), in the order of their values. -/
inductive Status where
  | ok | granted | busy | claimTimeout | conflict | duplicate | notPermitted | quota | tableFull
  | poolFull | staleLoan | loanEnded | range | noExtent | fenced | fenceTimeout | rejected | notHeld
  | bayFull | bayDown | inService | beyondDisk | bayState | bayError | bayTimeout | bayLost | cancelled
  | tagBusy | unknownNode | barred | notAuthority | mapPending | watchFull | notWatched | loaderState
  | loaderBusy | checkFailed | drainTimeout | aborted | rosterFull | badRequest | reset
deriving DecidableEq, Repr

/-- Event kinds (10_events_and_notices.md 10.1), in the order of their numbers. -/
inductive EventKind where
  | expiryC0 | expiryC1 | expiryC2 | expiryC3 | claimTimeout | torn | fenceHit | fenceHold | bayFailed
  | bayPresence | tableFull | watchFull | loader | ingressDrop | nodeNoticeLost | badFrame
deriving DecidableEq, Repr

/-- Loan modes (R18). -/
inductive Mode where
  | shared | sole
deriving DecidableEq, Repr

/-- States of a loan record (R18). -/
inductive LoanState where
  | free | held | upgrading | closing
deriving DecidableEq, Repr

/-- Revocation reasons (R39). -/
inductive Reason where
  | management | map | service | bayLost | bayFailed | barred | reset
deriving DecidableEq, Repr

/-- End causes of a loan (R18). -/
inductive EndCause where
  | released | expired | revoked (r : Reason)
deriving DecidableEq, Repr

/-- Summary of an extent's loans (R20). -/
inductive Summary where
  | idle | shared | sole
deriving DecidableEq, Repr

/-- Programmed policies (R7). -/
inductive Policy where
  | parked | library | asset | assetOpen | priv | output
deriving DecidableEq, Repr

/-- Effective policy (R10): the programmed one, or CLOSED with the status its refusals carry. -/
inductive Effective where
  | lent (p : Policy)
  | closed (reason : Status)
deriving DecidableEq, Repr

/-- Bay states (R67). -/
inductive BayState where
  | absent | ready | servicePending | service | failed
deriving DecidableEq, Repr

/-- Transfer kinds (R68). -/
inductive TransferKind where
  | read | write | openRead | serviceRead | serviceWrite
deriving DecidableEq, Repr

/-- Watch states (R90). -/
inductive WatchState where
  | armed | fired
deriving DecidableEq, Repr

/-- Reasons of a CHANGE notice (R15, R93). -/
inductive ChangeReason where
  | commit | torn | service | map | stale
deriving DecidableEq, Repr

/-- Fence kinds (R102). -/
inductive FenceKind where
  | soleClaim | write | any
deriving DecidableEq, Repr

/-- Fence actions (R102). -/
inductive FenceAction where
  | refuse | hold
deriving DecidableEq, Repr

/-- Loader states (R120). -/
inductive LoaderState where
  | idle | opened | checking | draining
deriving DecidableEq, Repr

/-- Commit modes (R120) and service modes (R80). -/
inductive CommitMode where
  | orderly | forced
deriving DecidableEq, Repr

/-- On-limit actions (R120). -/
inductive OnLimit where
  | discard | force
deriving DecidableEq, Repr

/-- Roles of a node record (R138). -/
inductive Role where
  | render | authority
deriving DecidableEq, Repr

/-- States of a node record (R138). -/
inductive NodeState where
  | enrolled | present | barred
deriving DecidableEq, Repr

/-- Run states of the Lease Clock (R51). -/
inductive RunState where
  | running | stopped
deriving DecidableEq, Repr

/-- Pending run orders (R60). -/
inductive RunOrder where
  | stop | run
deriving DecidableEq, Repr

/-! ### Requests, handles, frames to send -/

/-- A loan's handle: slot and issue (R19). -/
structure Handle where
  slot : Nat
  issue : BitVec 4
deriving DecidableEq, Repr

/-- What the switch keeps of an admitted request until its final reply: code, node id, tag and arrival
port (R22, R68, R107), the link round of its reservation (R163), and the pass mark (R111). -/
structure Req where
  code : Nat
  node : Nat
  tag : Nat
  port : PortId
  round : BitVec 16
  passed : Bool
deriving DecidableEq, Repr

/-- One item of a body (R156), field by field in the layout's order; enumerations as their R154 values. -/
inductive Item where
  | data (bytes : List Byte)
  | extentRecord (extent bay base k settings ceiling programmed effective reason : Nat)
  | stagedRecord (extent bay base k settings ceiling programmed comparison : Nat)
  | extentLoan (summary loans : Nat) (upgrade : Option Handle)
      (drain openReads entries onWaitList holderItems queueItems : Nat)
  | holder (handle : Handle) (node mode state cls remaining outstanding : Nat)
  | queue (node tag kind cls wait port : Nat) (upgrade : Option Handle)
  | loanRecord (slot issue state holder extent mode cls remaining writes doubtful outstanding cause
      reason owed owedTag owedPort : Nat)
  | loanStatus (handle : Handle) (extent mode state cls remaining outstanding : Nat)
  | clock (count run order units0 units1 units2 units3 : Nat)
  | bay (bay state capacity timeouts queued owed inFlight kind node tag : Nat) (handle : Option Handle)
      (first count ticks sent : Nat)
  /-- a bay item with nothing in flight: its in-flight fields are zero, the handle too (R156) -/
  | bayIdle (bay state capacity timeouts queued owed : Nat)
  | transfer (kind node tag : Nat) (handle : Option Handle) (extent : Option Nat) (first count : Nat)
  | watch (node : Nat) (latched : BitVec 32) (state : Nat)
  | fence (fence bay base k kind action localEnable globalEnable hit enabled : Nat)
  /-- the item of a held claim: its handle fields are zero, and it has no offset and no count (R156) -/
  | heldClaim (entry node tag code extent mode port remaining : Nat) (fences : BitVec 8)
  /-- the item of a held transfer; an open read's handle is absent (R68) -/
  | held (entry node tag code extent : Nat) (handle : Option Handle)
      (mode offset count port remaining : Nat) (fences : BitVec 8)
  | node (node role state : Nat) (port : Option PortId)
      (quota write ceiling held waiting : Nat) (tags : BitVec 64)
  | eventRecord (kind flag noticed level present detailA detailB detailC : Nat)
deriving DecidableEq, Repr

/-- A frame the switch sends (R151): a reply, or a notice. Fields a code does not name are zero. -/
structure OutFrame where
  notice : Bool
  code : Nat
  status : Status
  node : Nat
  tag : Nat
  torn : Bool
  passed : Bool
  handle : Option Handle
  extent : Nat
  argA : Nat
  argB : Nat
  offset : Nat
  generation : BitVec 32
  units : Nat
  body : List Item
deriving DecidableEq, Repr

/-- A place of an egress list: the frame, and whether its leaving frees its tag (R161: a refusal made at
ingress and a RESET reply of a Lending Reset free none). -/
structure Ready where
  frame : OutFrame
  freesTag : Bool
deriving DecidableEq, Repr

/-! ### The blocks -/

/-- A port block (R159, R161 to R163). -/
structure Port where
  up : Bool
  round : BitVec 16
  reservations : Nat
  notices : Nat
  egress : List Ready
deriving DecidableEq, Repr

/-- A node record (R138); its key is the node id. -/
structure NodeRec where
  role : Role
  state : NodeState
  learned : Option PortId
  quota : Nat
  write : Bool
  ceiling : Nat
  held : Nat
  waiting : Nat
  tags : BitVec 64
deriving DecidableEq, Repr

/-- An extent record (R1), staged or effective; its key is the extent number. -/
structure ExtentRec where
  bay : Nat
  base : Nat
  k : Nat
  write : Bool
  share : Bool
  openR : Bool
  ceiling : Nat
deriving DecidableEq, Repr

/-- Generation and torn mark of an extent number (R12). -/
structure Pair where
  gen : BitVec 32
  torn : Bool
deriving DecidableEq, Repr

/-- The Extent Map (R3, R12). -/
structure ExtentMap where
  records : Tab ExtentRec
  pairs : Tab Pair
deriving DecidableEq, Repr

/-- A loan record (R18); its key is the slot. -/
structure LoanRec where
  issue : BitVec 4
  state : LoanState
  holder : Nat
  extent : Nat
  mode : Mode
  cls : Nat
  remaining : Nat
  writes : Nat
  doubtful : Bool
  outstanding : Nat
  cause : Option EndCause
  releaseOwed : Option Req
deriving DecidableEq, Repr

/-- Kind of a claim entry; an UPGRADE names its loan (R22). -/
inductive EntryKind where
  | shared | sole | upgrade (loan : Handle)
deriving DecidableEq, Repr

/-- A claim entry (R22). -/
structure ClaimEntry where
  req : Req
  kind : EntryKind
  cls : Nat
  wait : Nat
deriving DecidableEq, Repr

/-- The stored part of an extent loan state (R20); summary, number of loans and pending upgrade are
computed from the Loan Table (assumption 19). -/
structure ExtentLoans where
  queue : List ClaimEntry
  drainMark : Bool
  openReads : Nat
deriving DecidableEq, Repr

/-- The Loan Engine (R18, R20, R29). -/
structure LoanEngine where
  table : Tab LoanRec
  extents : Tab ExtentLoans
  tableWait : List Nat
deriving DecidableEq, Repr

/-- The Lease Clock (R51, R55, R60). -/
structure Clock where
  count : BitVec 14
  run : RunState
  order : Option RunOrder
  units : Vector Nat 4
deriving DecidableEq, Repr

/-- A transfer record (R68). -/
structure Transfer where
  kind : TransferKind
  req : Req
  handle : Option Handle
  extent : Option Nat
  first : Nat
  count : Nat
  data : List Byte
deriving DecidableEq, Repr

/-- What a bay link receives of a transfer at issue (R70): a read or a write of `count` blocks from `first`, the
data of a write, and the link sequence number. -/
structure Operation where
  write : Bool
  first : Nat
  count : Nat
  data : List Byte
  seq : BitVec 16
deriving DecidableEq, Repr

/-- The transfer in flight (R68), with the operation its bay link received at issue (R70). -/
structure InFlight where
  transfer : Transfer
  operation : Operation
  seq : BitVec 16
  ticks : Nat
  replySent : Bool
deriving DecidableEq, Repr

/-- A bay record (R67). -/
structure Bay where
  state : BayState
  capacity : Nat
  queue : List Transfer
  inFlight : Option InFlight
  timeouts : Nat
  seq : BitVec 16
  serviceOwed : Option Req
deriving DecidableEq, Repr

/-- A watch record (R90). -/
structure Watch where
  node : Nat
  extent : Nat
  latched : BitVec 32
  state : WatchState
deriving DecidableEq, Repr

/-- A fence (R102). -/
structure Fence where
  bay : Nat
  base : Nat
  k : Nat
  kind : FenceKind
  action : FenceAction
  localEnable : Bool
  globalEnable : Bool
  hit : Bool
deriving DecidableEq, Repr

/-- The arguments of a held request (R107). A READ or WRITE keeps the slot and the recorded issue, and the extent
of its loan (R42, R118). -/
inductive HeldArgs where
  | claim (extent : Nat) (mode : Mode) (cls wait : Nat)
  | transfer (write : Bool) (slot : Nat) (recordedIssue : BitVec 4) (extent offset count : Nat) (data : List Byte)
  | openRead (extent offset count : Nat)
deriving DecidableEq, Repr

/-- A Held List entry (R107); its key is the place. -/
structure Held where
  req : Req
  args : HeldArgs
  remaining : Nat
  fences : BitVec 8
deriving DecidableEq, Repr

/-- The Fence Unit (R102, R107). -/
structure FenceUnit where
  fences : Vector Fence 8
  held : Tab Held
deriving DecidableEq, Repr

/-- The Map Loader (R120). An absent affected set is the empty list. -/
structure Loader where
  state : LoaderState
  staging : Tab ExtentRec
  openTimer : Option Nat
  mode : Option CommitMode
  drainLimit : Option Nat
  onLimit : Option OnLimit
  drainTimer : Option Nat
  escalated : Bool
  affected : List Nat
  commitOwed : Option Req
deriving DecidableEq, Repr

/-- The detail of an occurrence: fields A, B and C of R156's table. -/
structure Detail where
  a : Nat
  b : Nat
  c : Nat
deriving DecidableEq, Repr

/-- An event record (R165). -/
structure EventRec where
  flag : Bool
  noticed : Bool
  level : Nat
  detail : Option Detail
deriving DecidableEq, Repr

/-- The Event Unit (R165). -/
structure EventUnit where
  records : Vector EventRec 16
  mask : Nat
deriving DecidableEq, Repr

/-- The whole machine. `choices` and `pending` are the model's own: the count of open choices taken
(assumption 5) and the commands waiting, first in first out (assumption 1). -/
structure State where
  ports : Vector Port 4
  roster : Tab NodeRec
  map : ExtentMap
  loans : LoanEngine
  clock : Clock
  bays : Vector Bay 24
  watches : Tab Watch
  fences : FenceUnit
  loader : Loader
  events : EventUnit
  choices : Nat
  pending : List Instr
deriving DecidableEq, Repr

/-! ### Why a step can stop -/

/-- No behaviour of the spec stops the part, so there is no fault: every command has a next state. -/
inductive Fault where
deriving DecidableEq, Repr

/-- Refusals. -/
inductive Refusal where
  /-- Raised by `exec`'s arm of a command that has no meaning yet. Safe: nothing is claimed of it. No arm
  answers with it: every row has its meaning. -/
  | notModelled (mnemonic : String)
deriving DecidableEq, Repr

/-! ### Reset contents -/

/-- A port block after full reset (R164). -/
def Port.reset : Port := ⟨false, 0, 0, 0, []⟩

/-- The record of the authority after full reset (R149). -/
def NodeRec.reset : NodeRec := ⟨.authority, .enrolled, none, 16, false, 0, 0, 0, 0⟩

/-- Generation 0, torn clear (R12). -/
def Pair.zero : Pair := ⟨0, false⟩

/-- A FREE slot at an issue: the other fields have no meaning (R18) and are held at zero, as R46 shows them. -/
def LoanRec.free (issue : BitVec 4) : LoanRec := ⟨issue, .free, 0, 0, .shared, 0, 0, 0, false, 0, none, none⟩

/-- The loan state of an extent without claims, drain mark or open reads (R49). -/
def ExtentLoans.idle : ExtentLoans := ⟨[], false, 0⟩

/-- A bay after full reset (R88). -/
def Bay.reset : Bay := ⟨.absent, 0, [], none, 0, 0, none⟩

/-- A fence after full reset (R119). -/
def Fence.reset : Fence := ⟨0, 0, 0, .soleClaim, .refuse, false, false, false⟩

/-- The loader after full reset (R137). -/
def Loader.reset : Loader := ⟨.idle, [], none, none, none, none, none, false, [], none⟩

/-- An event record after full reset (R165). -/
def EventRec.reset : EventRec := ⟨false, false, 0, none⟩

/-- The machine after full reset (R172): every block's full-reset contents; the model's own `choices`
and `pending` at 0 and empty (DESIGN CHOICE, assumptions 1 and 5). -/
def State.reset : State where
  ports := Vector.replicate 4 Port.reset
  roster := [(4095, NodeRec.reset)]
  map := ⟨[], []⟩
  loans := ⟨[], [], []⟩
  clock := ⟨0, .running, none, #v[40, 60, 150, 225]⟩
  bays := Vector.replicate 24 Bay.reset
  watches := []
  fences := ⟨Vector.replicate 8 Fence.reset, []⟩
  loader := Loader.reset
  events := ⟨Vector.replicate 16 EventRec.reset, 0⟩
  choices := 0
  pending := []

end Sys2Proof.Machine
end

