-- ==== Sys2Proof/Machine/Codes.lean ====
section
/-! DEFINITION. The numbers that stand for names on the wire (R154, R155) and of event kinds (R165). -/

namespace Sys2Proof.Machine

/-- Status values (R155). -/
def Status.code : Status → Nat
  | .ok => 0 | .granted => 1 | .busy => 2 | .claimTimeout => 3 | .conflict => 4 | .duplicate => 5
  | .notPermitted => 6 | .quota => 7 | .tableFull => 8 | .poolFull => 9 | .staleLoan => 10
  | .loanEnded => 11 | .range => 12 | .noExtent => 13 | .fenced => 14 | .fenceTimeout => 15
  | .rejected => 16 | .notHeld => 17 | .bayFull => 18 | .bayDown => 19 | .inService => 20
  | .beyondDisk => 21 | .bayState => 22 | .bayError => 23 | .bayTimeout => 24 | .bayLost => 25
  | .cancelled => 26 | .tagBusy => 27 | .unknownNode => 28 | .barred => 29 | .notAuthority => 30
  | .mapPending => 31 | .watchFull => 32 | .notWatched => 33 | .loaderState => 34 | .loaderBusy => 35
  | .checkFailed => 36 | .drainTimeout => 37 | .aborted => 38 | .rosterFull => 39 | .badRequest => 40
  | .reset => 41

/-- Event kind numbers (10_events_and_notices.md 10.1). -/
def EventKind.num : EventKind → Nat
  | .expiryC0 => 0 | .expiryC1 => 1 | .expiryC2 => 2 | .expiryC3 => 3 | .claimTimeout => 4 | .torn => 5
  | .fenceHit => 6 | .fenceHold => 7 | .bayFailed => 8 | .bayPresence => 9 | .tableFull => 10
  | .watchFull => 11 | .loader => 12 | .ingressDrop => 13 | .nodeNoticeLost => 14 | .badFrame => 15

/-- clear, off or no 0; set, on or yes 1 (R154). -/
def markCode (b : Bool) : Nat := if b then 1 else 0

/-- mode (R154). -/
def Mode.code : Mode → Nat
  | .shared => 0 | .sole => 1

/-- claim entry kind (R154). -/
def EntryKind.code : EntryKind → Nat
  | .shared => 0 | .sole => 1 | .upgrade _ => 2

/-- loan state (R154). -/
def LoanState.code : LoanState → Nat
  | .free => 0 | .held => 1 | .upgrading => 2 | .closing => 3

/-- summary (R154). -/
def Summary.code : Summary → Nat
  | .idle => 0 | .shared => 1 | .sole => 2

/-- revocation reason; none is 0 (R154). -/
def Reason.code : Reason → Nat
  | .management => 1 | .map => 2 | .service => 3 | .bayLost => 4 | .bayFailed => 5 | .barred => 6
  | .reset => 7

/-- end cause; absent is 0 (R154). -/
def causeCode : Option EndCause → Nat
  | none => 0 | some .released => 1 | some .expired => 2 | some (.revoked _) => 3

/-- the revocation reason of an end cause (R154). -/
def causeReason : Option EndCause → Nat
  | some (.revoked r) => r.code
  | some .released | some .expired | none => 0

/-- CHANGE reason (R154). -/
def ChangeReason.code : ChangeReason → Nat
  | .commit => 1 | .torn => 2 | .service => 3 | .map => 4 | .stale => 5

/-- policy (R154). -/
def Policy.code : Policy → Nat
  | .parked => 0 | .library => 1 | .asset => 2 | .assetOpen => 3 | .priv => 4 | .output => 5

/-- effective policy (R154). -/
def Effective.code : Effective → Nat
  | .lent p => p.code | .closed _ => 6

/-- CLOSED reason: a status value, 0 for none (R156). -/
def Effective.reasonCode : Effective → Nat
  | .lent _ => 0 | .closed r => r.code

/-- policy settings: Write 4, Share 2, Open 1, added together (R154). -/
def ExtentRec.settings (r : ExtentRec) : Nat := 4 * markCode r.write + 2 * markCode r.share + markCode r.openR

/-- bay state (R154). -/
def BayState.code : BayState → Nat
  | .absent => 0 | .ready => 1 | .servicePending => 2 | .service => 3 | .failed => 4

/-- transfer kind (R154). -/
def TransferKind.code : TransferKind → Nat
  | .read => 0 | .write => 1 | .openRead => 2 | .serviceRead => 3 | .serviceWrite => 4

/-- watch state (R154). -/
def WatchState.code : WatchState → Nat
  | .armed => 0 | .fired => 1

/-- fence kind (R154). -/
def FenceKind.code : FenceKind → Nat
  | .soleClaim => 0 | .write => 1 | .any => 2

/-- fence action (R154). -/
def FenceAction.code : FenceAction → Nat
  | .refuse => 0 | .hold => 1

/-- loader state (R154). -/
def LoaderState.code : LoaderState → Nat
  | .idle => 0 | .opened => 1 | .checking => 2 | .draining => 3

/-- role (R154). -/
def Role.code : Role → Nat
  | .render => 0 | .authority => 1

/-- node state (R154). -/
def NodeState.code : NodeState → Nat
  | .enrolled => 0 | .present => 1 | .barred => 2

/-- run state (R154). -/
def RunState.code : RunState → Nat
  | .running => 0 | .stopped => 1

/-- pending order (R154). -/
def orderCode : Option RunOrder → Nat
  | none => 0 | some .stop => 1 | some .run => 2

/-- The status that cancelled queued transfers of a revoked loan carry (R39). -/
def Reason.cancelStatus : Reason → Status
  | .management | .map | .service | .barred => .cancelled
  | .bayLost => .bayLost
  | .bayFailed => .bayDown
  | .reset => .reset

/-- Render request codes (R152). -/
def isRenderCode (code : Nat) : Bool := decide (1 ≤ code) && decide (code ≤ 10)

/-- Loader request codes, OPEN LOAD to DISCARD LOAD (R121, R152). -/
def isLoaderCode (code : Nat) : Bool := decide (35 ≤ code) && decide (code ≤ 40)

end Sys2Proof.Machine
end

