-- ==== Sys2Proof/Machine/Ops.lean ====
section
/-! DEFINITION. Named operations over the state: sparse tables, accessors of each block, open orders. -/

namespace Sys2Proof

/-! ### Sparse tables -/

/-- The value listed at a key. -/
def Tab.look {α : Type} : Tab α → Nat → Option α
  | [], _ => none
  | (k, v) :: t, n => if k = n then some v else Tab.look t n

/-- List a value at a key, keeping keys rising. -/
def Tab.put {α : Type} : Tab α → Nat → α → Tab α
  | [], n, v => [(n, v)]
  | (k, w) :: t, n, v =>
      if n < k then (n, v) :: (k, w) :: t
      else if k = n then (n, v) :: t
      else (k, w) :: Tab.put t n v

/-- Unlist a key. -/
def Tab.drop {α : Type} (t : Tab α) (n : Nat) : Tab α := t.filter (fun x => decide (x.1 ≠ n))

/-- The value at a key of a table with a default. -/
def Tab.val {α : Type} (d : α) (t : Tab α) (n : Nat) : α := (t.look n).getD d

/-- Store at a key of a table with a default: the default itself is unlisted. -/
def Tab.store {α : Type} [DecidableEq α] (d : α) (t : Tab α) (n : Nat) (v : α) : Tab α :=
  if v = d then t.drop n else t.put n v

/-- Change every listed value. -/
def Tab.mapVals {α : Type} (f : α → α) (t : Tab α) : Tab α := t.map (fun x => (x.1, f x.2))

/-- Keys strictly rise: the canonical form of a table without a default. -/
def Tab.rising {α : Type} : Tab α → Bool
  | [] => true
  | [_] => true
  | x :: y :: t => decide (x.1 < y.1) && Tab.rising (y :: t)

/-- The canonical form of a table with a default: keys strictly rise and no entry is the default. -/
def Tab.canonical {α : Type} [DecidableEq α] (d : α) (t : Tab α) : Bool :=
  t.rising && t.all (fun x => decide (x.2 ≠ d))

end Sys2Proof

namespace Sys2Proof.Machine

/-! ### Orders the spec leaves open -/

/-- Some order of a list, by the open choices from number `c` on (assumption 5); `fuel` is the length. -/
def freeOrder {α : Type} (c : Nat) : Nat → List α → List α
  | 0, xs => xs
  | _ + 1, [] => []
  | _ + 1, [x] => [x]
  | fuel + 1, x :: y :: xs =>
      match (x :: y :: xs)[Config.freeChoice (c + fuel) % (xs.length + 2)]? with
      | some z => z :: freeOrder c fuel ((x :: y :: xs).eraseIdx (Config.freeChoice (c + fuel) % (xs.length + 2)))
      | none => x :: y :: xs

/-- Apply `f` to each item, in an order the spec leaves open. -/
def forEachFree {α : Type} (xs : List α) (f : α → State → State) (s : State) : State :=
  (freeOrder s.choices xs.length xs).foldl (fun s x => f x s) { s with choices := s.choices + xs.length }

/-- Apply `f` to each item, in the order of the list. -/
def forEach {α : Type} (xs : List α) (f : α → State → State) (s : State) : State :=
  xs.foldl (fun s x => f x s) s

/-- Apply a change where a condition holds. -/
def onlyIf (c : Bool) (f : State → State) (s : State) : State := if c then f s else s

/-! ### Ports -/

/-- The port block of a port. -/
def State.port (s : State) (p : PortId) : Port := s.ports[p]

/-- Replace a port block. -/
def setPort (p : PortId) (v : Port) (s : State) : State := { s with ports := s.ports.set p v }

/-! ### Roster -/

/-- The record of a node id. -/
def State.node (s : State) (n : Nat) : Option NodeRec := s.roster.look n

/-- Replace the roster. -/
def setRoster (t : Tab NodeRec) (s : State) : State := { s with roster := t }

/-- Add or replace a node record. -/
def setNode (n : Nat) (r : NodeRec) (s : State) : State := setRoster (s.roster.put n r) s

/-- Change a node's record, if there is one. -/
def updNode (n : Nat) (f : NodeRec → NodeRec) (s : State) : State :=
  match s.node n with
  | some r => setNode n (f r) s
  | none => s

/-- The record that holds the AUTHORITY role (R139). -/
def State.authority (s : State) : Option (Nat × NodeRec) :=
  s.roster.find? (fun x => decide (x.2.role = .authority))

/-- A tag's mark in a set of 64 marks. -/
def tagMark (t : Nat) : BitVec 64 := 1#64 <<< t

/-- The node is BARRED. -/
def State.isBarred (s : State) (n : Nat) : Bool :=
  match s.node n with
  | some r => decide (r.state = .barred)
  | none => false

/-! ### Extent Map -/

/-- The effective record of an extent number (R4). -/
def State.extent (s : State) (e : Nat) : Option ExtentRec := s.map.records.look e

/-- Generation and torn mark of an extent number (R12). -/
def State.pair (s : State) (e : Nat) : Pair := s.map.pairs.val Pair.zero e

/-- Set generation and torn mark together (R14). -/
def setPair (e : Nat) (v : Pair) (s : State) : State :=
  { s with map := { s.map with pairs := s.map.pairs.store Pair.zero e v } }

/-- Replace the effective records (the swap alone does). -/
def setRecords (m : Tab ExtentRec) (s : State) : State := { s with map := { s.map with records := m } }

/-- The extents the effective map places on a bay, in ascending number. -/
def State.bayExtents (s : State) (b : Nat) : List Nat :=
  (s.map.records.filter (fun x => decide (x.2.bay = b))).map (·.1)

/-! ### Loan Engine -/

/-- The loan record in a slot (R18). -/
def State.loan (s : State) (slot : Nat) : LoanRec := s.loans.table.val (LoanRec.free 0) slot

/-- Replace the loan record in a slot. -/
def setLoan (slot : Nat) (r : LoanRec) (s : State) : State :=
  { s with loans := { s.loans with table := s.loans.table.store (LoanRec.free 0) slot r } }

/-- Change the loan record in a slot. -/
def updLoan (slot : Nat) (f : LoanRec → LoanRec) (s : State) : State := setLoan slot (f (s.loan slot)) s

/-- The stored loan state of an extent (R20). -/
def State.xl (s : State) (e : Nat) : ExtentLoans := s.loans.extents.val ExtentLoans.idle e

/-- Replace the stored loan state of an extent. -/
def setXl (e : Nat) (v : ExtentLoans) (s : State) : State :=
  { s with loans := { s.loans with extents := s.loans.extents.store ExtentLoans.idle e v } }

/-- Change the stored loan state of an extent. -/
def updXl (e : Nat) (f : ExtentLoans → ExtentLoans) (s : State) : State := setXl e (f (s.xl e)) s

/-- Replace the table-wait list (R29). -/
def setTableWait (l : List Nat) (s : State) : State := { s with loans := { s.loans with tableWait := l } }

/-- The non-FREE loan records on an extent, in slot order: its number of loans is their count (R18, R20). -/
def State.loansOn (s : State) (e : Nat) : List (Nat × LoanRec) :=
  s.loans.table.filter (fun x => decide (x.2.state ≠ .free) && decide (x.2.extent = e))

/-- The non-FREE loan records of a holder, in slot order. -/
def State.loansOf (s : State) (n : Nat) : List (Nat × LoanRec) :=
  s.loans.table.filter (fun x => decide (x.2.state ≠ .free) && decide (x.2.holder = n))

/-- The summary of an extent, recomputed from its loans (R20). -/
def State.summary (s : State) (e : Nat) : Summary :=
  match s.loansOn e with
  | [] => .idle
  | l => if l.any (fun x => decide (x.2.mode = .sole)) then .sole else .shared

/-- The pending upgrade of an extent: the handle of its UPGRADING loan (R20). -/
def State.pendingUpgrade (s : State) (e : Nat) : Option Handle :=
  ((s.loansOn e).find? (fun x => decide (x.2.state = .upgrading))).map (fun x => ⟨x.1, x.2.issue⟩)

/-- Claim entries of all queues together: the use of the claim pool (R22). -/
def State.poolUsed (s : State) : Nat := (s.loans.extents.map (fun x => x.2.queue.length)).sum

/-- Search for a FREE slot from `n` on, `fuel` slots. -/
def freeSlotFrom (s : State) : Nat → Nat → Option Nat
  | 0, _ => none
  | fuel + 1, n => if (s.loan n).state = .free then some n else freeSlotFrom s fuel (n + 1)

/-- The lowest-numbered FREE slot of the Loan Table (R19). -/
def State.lowestFree (s : State) : Option Nat := freeSlotFrom s Config.loanSlots 0

/-- The grant units of a lease class (R55). -/
def State.units (s : State) (cls : Nat) : Nat := s.clock.units[cls]?.getD 0

/-- Replace the Lease Clock. -/
def setClock (c : Clock) (s : State) : State := { s with clock := c }

/-! ### Bay Engine -/

/-- The record of a bay. -/
def State.bay (s : State) (b : Nat) : Bay := s.bays[b]?.getD Bay.reset

/-- Replace a bay record. -/
def setBay (b : Nat) (v : Bay) (s : State) : State := { s with bays := s.bays.setIfInBounds b v }

/-- Change a bay record. -/
def updBay (b : Nat) (f : Bay → Bay) (s : State) : State := setBay b (f (s.bay b)) s

/-- The bays B0..B23. -/
def allBays : List Nat := List.range 24

/-! ### Watch List -/

/-- The key of the one record of a node and an extent (R90). -/
def watchKey (e n : Nat) : Nat := e * 4096 + n

/-- Replace the Watch List. -/
def setWatches (w : Tab Watch) (s : State) : State := { s with watches := w }

/-! ### Fence Unit -/

/-- A fence. -/
def State.fence (s : State) (i : Nat) : Fence := s.fences.fences[i]?.getD Fence.reset

/-- Replace all fences. -/
def setFences (v : Vector Fence 8) (s : State) : State := { s with fences := { s.fences with fences := v } }

/-- Replace the Held List. -/
def setHeld (h : Tab Held) (s : State) : State := { s with fences := { s.fences with held := h } }

/-! ### Map Loader and Event Unit -/

/-- Replace the loader's state. -/
def setLoader (l : Loader) (s : State) : State := { s with loader := l }

/-- An event record. -/
def State.event (s : State) (k : Nat) : EventRec := s.events.records[k]?.getD EventRec.reset

/-- Replace an event record. -/
def setEvent (k : Nat) (v : EventRec) (s : State) : State :=
  { s with events := { s.events with records := s.events.records.setIfInBounds k v } }

/-- Replace the Event Unit. -/
def setEvents (v : EventUnit) (s : State) : State := { s with events := v }

end Sys2Proof.Machine
end

