-- ==== Sys2Proof/Machine/Flags.lean ====
section
/-! DEFINITION. Event flags and EVENT notices (R165 to R167): taking an occurrence, and the notice test. -/

namespace Sys2Proof.Machine

/-- A frame joins the tail of a port's egress list (R161). -/
def pushReady (p : PortId) (x : Ready) (s : State) : State :=
  setPort p { s.port p with egress := (s.port p).egress ++ [x] } s

/-- A notice joins the tail of a port's egress list and takes a notice place (R162). -/
def pushNotice (p : PortId) (f : OutFrame) (s : State) : State :=
  setPort p { s.port p with egress := (s.port p).egress ++ [⟨f, false⟩], notices := (s.port p).notices + 1 } s

/-- A port takes a notice when its link is up and a notice place is free (R162). -/
def State.noticeFree (s : State) (p : PortId) : Bool :=
  (s.port p).up && decide ((s.port p).notices < Config.noticePlaces)

/-- A notice frame without fields (R151, R153): status 0, tag 0. -/
def noticeFrame (code node : Nat) : OutFrame :=
  ⟨true, code, .ok, node, 0, false, false, none, 0, 0, 0, 0, 0, 0, []⟩

/-- The record qualifies: flag set, not noticed, level above the mask level (R165). -/
def EventRec.qualifies (r : EventRec) (mask : Nat) : Bool := r.flag && !r.noticed && decide (mask < r.level)

/-- The event record item (R156). -/
def eventItem (k : Nat) (r : EventRec) : Item :=
  match r.detail with
  | some d => .eventRecord k (markCode r.flag) (markCode r.noticed) r.level 1 d.a d.b d.c
  | none => .eventRecord k (markCode r.flag) (markCode r.noticed) r.level 0 0 0 0

/-- The lowest-numbered qualifying record (R167). -/
def State.firstQualifying (s : State) : Option Nat :=
  (List.range 16).find? (fun k => (s.event k).qualifies s.events.mask)

/-- Make the EVENT notice of record `k` for the authority `n` at port `p` (R167). -/
def makeEventNotice (n : Nat) (p : PortId) (k : Nat) (s : State) : State :=
  s |> setEvent k { s.event k with noticed := true }
    |> pushNotice p { noticeFrame 99 n with
        argA := k, argB := (s.event k).level, body := [eventItem k { s.event k with noticed := true }] }

/-- One EVENT notice, if every condition of R167 holds: the authority has a learned port, its link is UP
with a notice place free, and a record qualifies. -/
def noticeOnce (s : State) : State :=
  match s.authority with
  | some (n, r) =>
    match r.learned with
    | some p =>
      if s.noticeFree p then
        match s.firstQualifying with
        | some k => makeEventNotice n p k s
        | none => s
      else s
    | none => s
  | none => s

/-- The notice test (R167): notices are made, lowest kind first, until a condition fails. -/
def noticeTest (s : State) : State := Nat.repeat noticeOnce 16 s

/-- Take an occurrence (R166). On a clear flag, the flag is set with this detail and the notice test is
made if the record qualifies; a set flag is left as it is. -/
def raise (kind : EventKind) (d : Detail) (s : State) : State :=
  if (s.event kind.num).flag then s
  else
    let r : EventRec := { s.event kind.num with flag := true, noticed := false, detail := some d }
    let s := setEvent kind.num r s
    if r.qualifies s.events.mask then noticeTest s else s

end Sys2Proof.Machine
end

