-- ==== Sys2Proof/Machine/Egress.lean ====
section
/-! DEFINITION. Replies and node notices: how they are made and handed to a port's egress (R141, R151, R161 to R163). -/

namespace Sys2Proof.Machine

/-- A tag leaves a node's tags in use (R141). -/
def freeTag (n t : Nat) (s : State) : State :=
  updNode n (fun r => { r with tags := r.tags &&& ~~~ tagMark t }) s

/-- A reply to a request with a status and no other field (R151). The reply to a loader request carries the
loader state in arg B, whatever its status (R121, R152; assumption 9). -/
def replyFrame (s : State) (q : Req) (st : Status) : OutFrame :=
  ⟨false, q.code, st, q.node, q.tag, false, q.passed, none, 0, 0,
    if isLoaderCode q.code then s.loader.state.code else 0, 0, 0, 0, []⟩

/-- Hand a reply to the egress of its request's arrival port (R161). A reply whose reservation records a
link round other than the port's is discarded, and its tag is freed then (R163; assumption 8). -/
def emit (q : Req) (frees : Bool) (o : OutFrame) (s : State) : State :=
  if (s.port q.port).up && decide (q.round = (s.port q.port).round) then pushReady q.port ⟨o, frees⟩ s
  else if frees then freeTag q.node q.tag s
  else s

/-- The final reply of an admitted request: its tag is freed when it leaves (R141). `fields` adds what
R152 names for the code. -/
def replyWith (q : Req) (st : Status) (fields : OutFrame → OutFrame) (s : State) : State :=
  emit q true (fields (replyFrame s q st)) s

/-- A final reply that carries its status alone. -/
def reply (q : Req) (st : Status) (s : State) : State := replyWith q st id s

/-- A refusal made at ingress: it holds the frame's reservation and frees no tag (R160, R161). -/
def refuseAtIngress (q : Req) (st : Status) (s : State) : State := emit q false (replyFrame s q st) s

/-- A RESET reply of a Lending Reset: the tag leaves its set when the reply is made (R141, R149). -/
def replyReset (q : Req) (s : State) : State :=
  freeTag q.node q.tag (emit q false (replyFrame s q .reset) s)

/-- The generation and TORN mark of an extent in a reply or notice, read as one pair (R14). -/
def withPair (s : State) (e : Nat) (o : OutFrame) : OutFrame :=
  { o with generation := (s.pair e).gen, torn := (s.pair e).torn }

/-- Hand a node notice to the egress of the node's learned port (R140, R162). With the link down or no
notice place free it is discarded and NODE_NOTICE_LOST is raised. A node without a record or without a
learned port gets none (R140; assumption 26). -/
def notify (n : Nat) (o : OutFrame) (s : State) : State :=
  match s.node n with
  | some r =>
    match r.learned with
    | some p => if s.noticeFree p then pushNotice p o s else raise .nodeNoticeLost ⟨n, p.val, 0⟩ s
    | none => s
  | none => s

/-- EXPIRED notice (R58, R153). -/
def expiredNotice (n : Nat) (h : Handle) (e : Nat) : OutFrame :=
  { noticeFrame 96 n with handle := some h, extent := e }

/-- REVOKED notice (R40, R153). -/
def revokedNotice (n : Nat) (h : Handle) (e : Nat) (r : Reason) : OutFrame :=
  { noticeFrame 97 n with handle := some h, extent := e, argA := r.code }

/-- CHANGE notice (R95, R153). -/
def changeNotice (n e : Nat) (v : Pair) (why : ChangeReason) : OutFrame :=
  { noticeFrame 98 n with extent := e, generation := v.gen, torn := v.torn, argA := why.code }

end Sys2Proof.Machine
end

