-- ==== Sys2Proof/Machine/ExtentOps.lean ====
section
/-! DEFINITION. The Extent Map: lookup, policy, effective policy, updates of generation and torn mark (R4 to R16), and the Watch List's part of a change (R95, R98). -/

namespace Sys2Proof.Machine

/-- The extent's size in blocks (R1). -/
def ExtentRec.size (r : ExtentRec) : Nat := 2 ^ r.k

/-- The extent's range on its bay holds a block (R1). -/
def ExtentRec.covers (r : ExtentRec) (b block : Nat) : Bool :=
  decide (r.bay = b) && decide (r.base ≤ block) && decide (block < r.base + r.size)

/-- Lookup of a bay and a block (R4). -/
def State.lookupBlock (s : State) (b block : Nat) : Option Nat :=
  if block < Config.blockSpace then
    (s.map.records.find? (fun x => x.2.covers b block)).map (·.1)
  else none

/-- Lookup of a span of one or two blocks (R5): the set of extents found, without duplicates. -/
def State.lookupSpan (s : State) (b first count : Nat) : List Nat :=
  match s.lookupBlock b first, (if count = 2 then s.lookupBlock b (first + 1) else none) with
  | some x, some y => if x = y then [x] else [x, y]
  | some x, none => [x]
  | none, some y => [y]
  | none, none => []

/-- Programmed policy (R7). -/
def ExtentRec.policy (r : ExtentRec) : Policy :=
  match r.write, r.share, r.openR with
  | false, false, false => .parked
  | false, false, true => .library
  | false, true, false => .asset
  | false, true, true => .assetOpen
  | true, false, _ => .priv
  | true, true, _ => .output

/-- The loan modes a claim may ask (R7). -/
def Policy.allows : Policy → Mode → Bool
  | .asset, .shared | .assetOpen, .shared | .output, .shared => true
  | .priv, .sole | .output, .sole => true
  | .parked, _ | .library, _ => false
  | .asset, .sole | .assetOpen, .sole | .priv, .shared => false

/-- Reads without a loan (R7). -/
def Policy.allowsOpenRead : Policy → Bool
  | .library | .assetOpen => true
  | .parked | .asset | .priv | .output => false

/-- Effective policy and CLOSED reason (R10), derived anew at each check (R11). -/
def State.effective (s : State) (r : ExtentRec) : Effective :=
  match (s.bay r.bay).state with
  | .absent | .failed => .closed .bayDown
  | .servicePending | .service => .closed .inService
  | .ready => if (s.bay r.bay).capacity < r.base + r.size then .closed .beyondDisk else .lent r.policy

/-- A LOAN or SERVICE change handed to the Watch List (R95): every ARMED record on the extent becomes
FIRED, and each of their nodes gets a CHANGE notice, in an open order. -/
def fireWatches (e : Nat) (v : Pair) (why : ChangeReason) (s : State) : State :=
  let armed := s.watches.filter (fun x => decide (x.2.extent = e) && decide (x.2.state = .armed))
  s |> setWatches (s.watches.mapVals (fun w => if w.extent = e then { w with state := .fired } else w))
    |> forEachFree armed (fun x => notify x.2.node (changeNotice x.2.node e v why))

/-- A MAP change handed to the Watch List (R98): every record on the extent, ARMED or FIRED, is removed
and its node gets a CHANGE notice of generation 0, torn clear. -/
def dropWatches (e : Nat) (s : State) : State :=
  s |> setWatches (s.watches.filter (fun x => decide (x.2.extent ≠ e)))
    |> forEachFree (s.watches.filter (fun x => decide (x.2.extent = e)))
        (fun x => notify x.2.node (changeNotice x.2.node e Pair.zero .map))

/-- The Loan Engine's update (R13): the generation steps if `step`, the torn mark takes the value given.
A step is handed to the Watch List (R15); a set mark raises TORN with the generation after it (R16). -/
def loanUpdate (e : Nat) (step torn : Bool) (s : State) : State :=
  let v : Pair := ⟨if step then (s.pair e).gen + 1 else (s.pair e).gen, torn⟩
  s |> setPair e v
    |> onlyIf step (fireWatches e v (if torn then .torn else .commit))
    |> onlyIf torn (raise .torn ⟨e, 0, v.gen.toNat⟩)

/-- The Bay Engine's update for a completed service write (R13, R85): one step, torn mark unchanged. -/
def serviceUpdate (e : Nat) (s : State) : State :=
  let v : Pair := ⟨(s.pair e).gen + 1, (s.pair e).torn⟩
  s |> setPair e v |> fireWatches e v .service

/-- The Map Loader's update at a swap (R13): generation 0, torn clear, handed on as MAP. -/
def mapUpdate (e : Nat) (s : State) : State := s |> setPair e Pair.zero |> dropWatches e

/-- The extent record item (R156). -/
def extentItem (s : State) (e : Nat) (r : ExtentRec) : Item :=
  .extentRecord e r.bay r.base r.k r.settings r.ceiling r.policy.code (s.effective r).code
    (s.effective r).reasonCode

end Sys2Proof.Machine
end

