-- ==== Sys2Proof/Machine/EndTests.lean ====
section
/-! DEFINITION. The swap (R135), the drain test (R133) and the entry test (R82): what the end of a loan or open read may set off. -/

namespace Sys2Proof.Machine

/-- Every fence's local enable is cleared (R115). -/
def clearLocalEnables (s : State) : State :=
  setFences (s.fences.fences.map (fun f => { f with localEnable := false })) s

/-- Clear the drain mark of an extent (R21). -/
def clearDrainMark (e : Nat) (s : State) : State := updXl e (fun x => { x with drainMark := false }) s

/-- Set the drain mark of an extent (R21). -/
def setDrainMark (e : Nat) (s : State) : State := updXl e (fun x => { x with drainMark := true }) s

/-- Answer an owed reply, if there is one. -/
def replyOwed (owed : Option Req) (st : Status) (s : State) : State :=
  match owed with
  | some q => reply q st s
  | none => s

/-- The swap (R135), its six effects in order. -/
def doSwap (s : State) : State :=
  let affected := s.loader.affected
  let owed := s.loader.commitOwed
  s |> setRecords s.loader.staging
    |> forEachFree affected mapUpdate
    |> clearLocalEnables
    |> forEach affected clearDrainMark
    |> setLoader Loader.reset
    |> replyOwed owed .ok

/-- No affected extent has a loan in any state or an open read (R133). -/
def State.drained (s : State) : Bool :=
  s.loader.affected.all (fun e => (s.loansOn e).isEmpty && decide ((s.xl e).openReads = 0))

/-- The drain test in DRAINING (R133): when it passes, the swap is made. -/
def drainTest (s : State) : State :=
  if s.loader.state = .draining && s.drained then doSwap s else s

/-- No extent of the bay has a loan in any state or an open read (R82). -/
def State.bayEmpty (s : State) (b : Nat) : Bool :=
  (s.bayExtents b).all (fun e => (s.loansOn e).isEmpty && decide ((s.xl e).openReads = 0))

/-- The entry test of a SERVICE_PENDING bay (R82): when it passes, the bay enters SERVICE and an owed
SERVICE BAY is answered OK. -/
def entryTest (b : Nat) (s : State) : State :=
  if (s.bay b).state = .servicePending && s.bayEmpty b then
    s |> updBay b (fun x => { x with state := .service, serviceOwed := none })
      |> replyOwed (s.bay b).serviceOwed .ok
  else s

/-- Which tests an end makes now: forced revocations defer the drain test (R132), a Lending Reset's
cancellations defer the entry test (assumption 13). -/
structure Tests where
  drain : Bool
  entry : Bool
deriving DecidableEq, Repr

/-- Both tests at each end. -/
def Tests.all : Tests := ⟨true, true⟩

/-- One test that the end of a loan or open read makes. -/
inductive EndTest where
  | drain
  | entry (b : Nat)
deriving DecidableEq, Repr

/-- The tests that the end of a loan or open read on an extent makes: the entry test of the extent's bay
in SERVICE_PENDING (R82), and the drain test for an affected extent in DRAINING (R133). -/
def State.testsFor (s : State) (t : Tests) (e : Nat) : List EndTest :=
  (match s.extent e with
    | some r => if t.entry && decide ((s.bay r.bay).state = .servicePending) then [.entry r.bay] else []
    | none => [])
  ++ (if t.drain && decide (s.loader.state = .draining) && decide (e ∈ s.loader.affected) then [.drain] else [])

/-- Make one test. -/
def runEndTest (x : EndTest) (s : State) : State :=
  match x with
  | .drain => drainTest s
  | .entry b => entryTest b s

/-- The tests made after the end of a loan or open read on an extent, in an open order. -/
def afterEnd (t : Tests) (e : Nat) (s : State) : State := forEachFree (s.testsFor t e) runEndTest s

end Sys2Proof.Machine
end

