-- ==== Sys2Proof/Machine/LoanOps.lean ====
section
/-! DEFINITION. The Loan Engine's shared operations: grants, conversions, claim queues, the table-wait list and the end of a loan (R26 to R33, R38). -/

namespace Sys2Proof.Machine

/-- The handle of the loan in a slot. -/
def State.handleOf (s : State) (slot : Nat) : Handle := ⟨slot, (s.loan slot).issue⟩

/-- The handle names a loan: the slot is not FREE and its issue is the handle's. -/
def State.live (s : State) (h : Handle) : Bool :=
  decide ((s.loan h.slot).state ≠ .free) && decide ((s.loan h.slot).issue = h.issue)

/-! ### Entries leaving a queue -/

/-- The head is a grant that only a slot is wanting for (R28, R29). -/
def State.headAwaitsSlot (s : State) (e : Nat) : Bool :=
  match (s.xl e).queue with
  | [] => false
  | c :: _ =>
    match c.kind with
    | .upgrade _ => false
    | .sole => decide (s.summary e = .idle)
    | .shared => decide (s.summary e ≠ .sole)

/-- An extent leaves the table-wait list when its head is no longer a grant stopped for lack of a slot,
wherever it stands (R29). -/
def tidyWait (e : Nat) (s : State) : State :=
  if s.headAwaitsSlot e then s else setTableWait (s.loans.tableWait.filter (fun x => decide (x ≠ e))) s

/-- An extent joins the tail of the table-wait list if it is not on it (R29). -/
def joinWait (e : Nat) (s : State) : State :=
  if e ∈ s.loans.tableWait then s else setTableWait (s.loans.tableWait ++ [e]) s

/-- A claim entry leaves its queue without a grant: its place returns to the pool, a non-upgrade entry
lowers the waiting count (R23, R31), and an UPGRADE's loan returns to HELD (R33). -/
def dropEntry (e : Nat) (c : ClaimEntry) (s : State) : State :=
  let s := updXl e (fun x => { x with queue := x.queue.erase c }) s
  match c.kind with
  | .upgrade h => updLoan h.slot (fun r => if r.state = .upgrading then { r with state := .held } else r) s
  | .shared | .sole => updNode c.req.node (fun r => { r with waiting := r.waiting - 1 }) s

/-- A claim entry is refused with a status (R30, R31, R33). -/
def refuseEntry (st : Status) (e : Nat) (c : ClaimEntry) (s : State) : State :=
  s |> dropEntry e c |> tidyWait e |> reply c.req st

/-- Every claim entry on an extent is refused (R31), and the queue is then empty. R31 gives the entries of one queue no
order, and the model takes queue order (assumption 41). -/
def refuseQueue (st : Status) (e : Nat) (s : State) : State :=
  forEach (s.xl e).queue (refuseEntry st e) s

/-- The pending upgrade of a loan ends with a status, and the loan is SHARED HELD again (R33). -/
def endUpgrade (st : Status) (slot : Nat) (s : State) : State :=
  let e := (s.loan slot).extent
  match (s.xl e).queue.find? (fun c => decide (c.kind = .upgrade (s.handleOf slot))) with
  | some c => refuseEntry st e c s
  | none => s

/-! ### Grants and conversions -/

/-- The GRANTED reply of a loan (R26, R32, R33): handle, extent, class, units, generation and TORN mark. -/
def replyGranted (q : Req) (slot : Nat) (s : State) : State :=
  replyWith q .granted (fun o =>
    { withPair s (s.loan slot).extent o with
      handle := some (s.handleOf slot), extent := (s.loan slot).extent, argA := (s.loan slot).cls,
      units := (s.loan slot).remaining }) s

/-- The class of a grant: the lowest of the requested class, the extent's ceiling and the node's (R9). -/
def State.grantClass (s : State) (e n cls : Nat) : Nat :=
  min cls (min ((s.extent e).elim 0 (·.ceiling)) ((s.node n).elim 0 (·.ceiling)))

/-- A grant (R26): the slot is filled, the held count rises, and GRANTED goes out. -/
def grant (q : Req) (e : Nat) (mode : Mode) (cls slot : Nat) (s : State) : State :=
  let c := s.grantClass e q.node cls
  s |> setLoan slot ⟨(s.loan slot).issue, .held, q.node, e, mode, c, s.units c, 0, false, 0, none, none⟩
    |> updNode q.node (fun r => { r with held := r.held + 1 })
    |> replyGranted q slot

/-- A loan turns SOLE (R32, R33): state HELD, remaining the current units of its class, class kept. -/
def makeSole (slot : Nat) (s : State) : State :=
  updLoan slot (fun r => { r with state := .held, mode := .sole, remaining := s.units r.cls }) s

/-- The loan of a handle is the one loan on the extent (R20). -/
def State.isOnlyLoan (s : State) (e : Nat) (h : Handle) : Bool :=
  match s.loansOn e with
  | [(slot, r)] => decide (slot = h.slot) && decide (r.issue = h.issue)
  | _ => false

/-- The head UPGRADE entry converts its loan (R33). -/
def convertHead (e : Nat) (c : ClaimEntry) (h : Handle) (s : State) : State :=
  s |> updXl e (fun x => { x with queue := x.queue.tail })
    |> makeSole h.slot
    |> replyGranted c.req h.slot

/-- The head SOLE or SHARED entry is granted (R28): it moves from the waiting to the held count. -/
def grantHead (e : Nat) (c : ClaimEntry) (mode : Mode) (slot : Nat) (s : State) : State :=
  s |> updXl e (fun x => { x with queue := x.queue.tail })
    |> updNode c.req.node (fun r => { r with waiting := r.waiting - 1 })
    |> grant c.req e mode c.cls slot

/-! ### Serving queues -/

/-- Re-evaluation of a claim queue (R28, R29), head by head; `fuel` bounds the heads. A SHARED batch that
runs out of slots raises TABLE_FULL; a SOLE head without a slot does not. No entry of a marked extent is
taken (R21). -/
def serveHeads : Nat → Nat → State → State
  | 0, _, s => s
  | fuel + 1, e, s =>
    if (s.xl e).drainMark then s
    else
      match (s.xl e).queue with
      | [] => s
      | c :: _ =>
        match c.kind with
        | .upgrade h => if s.isOnlyLoan e h then serveHeads fuel e (convertHead e c h s) else s
        | .sole =>
          if s.summary e = .idle then
            match s.lowestFree with
            | some slot => serveHeads fuel e (grantHead e c .sole slot s)
            | none => joinWait e s
          else s
        | .shared =>
          if s.summary e = .sole then s
          else
            match s.lowestFree with
            | some slot => serveHeads fuel e (grantHead e c .shared slot s)
            | none => s |> joinWait e |> raise .tableFull ⟨c.req.node, e, 0⟩

/-- The queue of an extent is re-evaluated (R28), and its place on the table-wait list follows (R29). -/
def reevaluate (e : Nat) (s : State) : State :=
  tidyWait e (serveHeads ((s.xl e).queue.length + 1) e s)

/-- Serve the table-wait list from its head while a FREE slot remains (R29); an extent still stopped after
its re-evaluation ends the serving. -/
def serveWaitFrom : Nat → State → State
  | 0, s => s
  | fuel + 1, s =>
    match s.loans.tableWait, s.lowestFree with
    | e :: _, some _ =>
      if (reevaluate e s).loans.tableWait.head? = some e then reevaluate e s
      else serveWaitFrom fuel (reevaluate e s)
    | _, _ => s

/-- Table-wait service (R29, R38 step 8). -/
def serveTableWait (s : State) : State := serveWaitFrom s.loans.tableWait.length s

/-! ### The end of a loan -/

/-- The torn mark that a SOLE loan's end gives (R38 step 1). -/
def endTorn (cause : EndCause) (doubtful : Bool) : Bool :=
  match cause with
  | .released => doubtful
  | .expired | .revoked _ => true

/-- The loan-end effects, steps 1 to 6 of R38 (the summary and the number of loans follow the table). -/
def freeLoan (slot : Nat) (cause : EndCause) (s : State) : State :=
  let r := s.loan slot
  s |> onlyIf (decide (r.mode = .sole)) (loanUpdate r.extent (decide (0 < r.writes)) (endTorn cause r.doubtful))
    |> onlyIf (decide (r.state = .upgrading)) (endUpgrade .loanEnded slot)
    |> (fun s =>
        match r.releaseOwed with
        | some q => replyWith q (if cause = .released then .ok else .loanEnded) (withPair s r.extent) s
        | none => s)
    |> setLoan slot (LoanRec.free (r.issue + 1))
    |> onlyIf (decide (r.holder ≠ 0)) (updNode r.holder (fun n => { n with held := n.held - 1 }))

/-- Steps 7 and 8 of R38: the extent's own queue, then the table-wait list. -/
def serveAfterFree (e : Nat) (s : State) : State := s |> reevaluate e |> serveTableWait

/-- A loan record becomes FREE (R38), and the tests that its end makes follow (R82, R133). The tests, with the replies
and MAP notices they make, come after the re-evaluation and table-wait service of steps 7 and 8 and their GRANTED
replies: no rule orders the two, and the model chooses (assumption 40). -/
def endLoan (t : Tests) (slot : Nat) (cause : EndCause) (s : State) : State :=
  s |> freeLoan slot cause
    |> serveAfterFree (s.loan slot).extent
    |> afterEnd t (s.loan slot).extent

/-- A loan becomes CLOSING with an end cause (R37); a FREE slot has no loan to close. -/
def closeLoan (slot : Nat) (cause : EndCause) (s : State) : State :=
  updLoan slot (fun r =>
    if r.state = .free then r else { r with state := .closing, cause := some cause }) s

end Sys2Proof.Machine
end

