-- ==== Sys2Proof/Machine/BayOps.lean ====
section
/-! DEFINITION. Bay queues, issue, ends of transfers, revocation, failure and loss of a bay (R39, R40, R45, R69 to R77). -/

namespace Sys2Proof.Machine

/-! ### Queue and issue -/

/-- A bay that issues transfers (R70). -/
def BayState.issues : BayState → Bool
  | .ready | .servicePending | .service => true
  | .absent | .failed => false

/-- The operation that a bay link receives for a transfer (R70): OPEN READ and SERVICE READ are reads, SERVICE
WRITE is a write. -/
def Transfer.operation (x : Transfer) (seq : BitVec 16) : Operation :=
  match x.kind with
  | .read | .openRead | .serviceRead => ⟨false, x.first, x.count, [], seq⟩
  | .write | .serviceWrite => ⟨true, x.first, x.count, x.data, seq⟩

/-- A transfer just issued with a link sequence number (R70): no tick taken and its reply-sent mark clear. -/
def Transfer.issued (x : Transfer) (seq : BitVec 16) : InFlight := ⟨x, x.operation seq, seq, 0, false⟩

/-- The issue test (R70): with nothing in flight the head of the queue is issued with the next link
sequence number, and the bay link receives its operation. -/
def issueTest (b : Nat) (s : State) : State :=
  match (s.bay b).inFlight, (s.bay b).queue with
  | none, x :: rest =>
    if (s.bay b).state.issues then
      updBay b (fun y => { y with
        queue := rest, seq := y.seq + 1, inFlight := some (x.issued (y.seq + 1)) }) s
    else s
  | _, _ => s

/-- A transfer joins the tail of its bay's queue; joining an empty queue makes the issue test (R69, R70). -/
def joinBay (b : Nat) (x : Transfer) (s : State) : State :=
  s |> updBay b (fun y => { y with queue := y.queue ++ [x] })
    |> onlyIf (s.bay b).queue.isEmpty (issueTest b)

/-! ### Ends of transfers -/

/-- The loan record after one of its transfers ended (R45): outstanding falls, a WRITE that was in flight
counts in writes (held at 65535), and one that ended BAY_ERROR or BAY_TIMEOUT makes the loan doubtful. -/
def LoanRec.afterTransfer (r : LoanRec) (kind : TransferKind) (inFlight : Bool) (st : Status) : LoanRec :=
  { r with
    outstanding := r.outstanding - 1
    writes := if inFlight && decide (kind = .write) then min (r.writes + 1) 65535 else r.writes
    doubtful := r.doubtful ||
      (decide (kind = .write) && (decide (st = .bayError) || decide (st = .bayTimeout))) }

/-- The end of a transfer is handed on (R45, R74 step 2): to the Loan Engine for a READ or WRITE, which
frees a CLOSING loan at outstanding 0 where `frees`; an OPEN READ lowers its extent's count and makes the
tests of its end. -/
def handEnd (t : Tests) (x : Transfer) (inFlight frees : Bool) (st : Status) (s : State) : State :=
  match x.handle with
  | some h =>
    if s.live h then
      let r := (s.loan h.slot).afterTransfer x.kind inFlight st
      s |> setLoan h.slot r
        |> onlyIf (frees && decide (r.state = .closing) && decide (r.outstanding = 0))
            (endLoan t h.slot (r.cause.getD .released))
    else s
  | none =>
    match x.kind, x.extent with
    | .openRead, some e =>
      s |> updXl e (fun y => { y with openReads := y.openReads - 1 }) |> afterEnd t e
    | _, _ => s

/-- The queued transfers of a bay that a test picks are removed and answered, and each end is handed on (R69, R74).
They are answered in queue order: R40, R58, R76, R77 and R89 give that order for theirs, and for the OPEN READs of R81,
R132 and R146, which have none, the model chooses it (assumption 44). `answer` makes the reply. -/
def cancelWith (answer : Req → State → State) (t : Tests) (frees : Bool) (st : Status) (b : Nat)
    (pick : Transfer → Bool) (s : State) : State :=
  let gone := (s.bay b).queue.filter pick
  s |> updBay b (fun y => { y with queue := y.queue.filter (fun x => !pick x) })
    |> forEach gone (fun x s => s |> answer x.req |> handEnd t x false frees st)

/-- Cancellation with the cancelling event's status (R69). -/
def cancelQueued (t : Tests) (frees : Bool) (st : Status) (b : Nat) (pick : Transfer → Bool) (s : State) :
    State :=
  cancelWith (fun q => reply q st) t frees st b pick s

/-- What the reply of a completed transfer carries (R72). -/
def okFields (s : State) (x : Transfer) (data : List Byte) (o : OutFrame) : OutFrame :=
  match x.kind with
  | .read | .openRead => { withPair s (x.extent.getD 0) o with body := [.data data] }
  | .write => withPair s (x.extent.getD 0) o
  | .serviceRead => { o with body := [.data data] }
  | .serviceWrite => o

/-- The transfer in flight ends (R74): the reply unless already sent, the hand-over, the entry test, what
`between` adds (R76), the issue test. `data` is what a read delivered. -/
def endInFlight (b : Nat) (fl : InFlight) (st : Status) (data : List Byte) (between : State → State)
    (s : State) : State :=
  s |> updBay b (fun y => { y with inFlight := none })
    |> (fun s => onlyIf (!fl.replySent)
        (replyWith fl.transfer.req st (if st = .ok then okFields s fl.transfer data else id)) s)
    |> handEnd Tests.all fl.transfer true true st
    |> entryTest b
    |> between
    |> issueTest b

/-! ### Revocation -/

/-- The bay of a loan's extent. -/
def State.bayOf (s : State) (e : Nat) : Nat := (s.extent e).elim 24 (·.bay)

/-- A transfer of the loan is in flight. -/
def State.loanInFlight (s : State) (b : Nat) (h : Handle) : Bool :=
  match (s.bay b).inFlight with
  | some fl => decide (fl.transfer.handle = some h)
  | none => false

/-- The queued transfers of a loan are cancelled (R40 step 2, R58 step 2); none frees the loan (R45). -/
def cancelLoan (t : Tests) (h : Handle) (st : Status) (s : State) : State :=
  cancelQueued t false st (s.bayOf (s.loan h.slot).extent) (fun x => decide (x.handle = some h)) s

/-- The REVOKED notice (R40 step 4): none for reason RESET or a detached loan. -/
def notifyRevoked (holder : Nat) (h : Handle) (e : Nat) (why : Reason) (s : State) : State :=
  onlyIf (decide (why ≠ .reset) && decide (holder ≠ 0)) (notify holder (revokedNotice holder h e why)) s

/-- A loan ends in cause, its queued transfers already cancelled (R40 step 3, R58 step 3): with a transfer
in flight it becomes CLOSING, and its queue is re-evaluated if its UPGRADE entry left (R28; assumption
15); otherwise it is freed. No rule says where in R40's steps that re-evaluation falls: the model makes it after
step 3, behind the replies of step 2 and before the REVOKED notice of step 4 (assumption 42). -/
def closeOrEnd (t : Tests) (h : Handle) (cause : EndCause) (wasUpgrading : Bool) (s : State) : State :=
  if s.loanInFlight (s.bayOf (s.loan h.slot).extent) h then
    s |> closeLoan h.slot cause |> onlyIf wasUpgrading (reevaluate (s.loan h.slot).extent)
  else endLoan t h.slot cause s

/-- Revocation of the loan in a slot (R40). Where step 3 frees the loan, the tests its end makes, and what they
send, come before the REVOKED notice of step 4: no rule orders the two, and the model chooses (assumption 35). -/
def revoke (t : Tests) (why : Reason) (slot : Nat) (s : State) : State :=
  let r := s.loan slot
  let h := s.handleOf slot
  match r.state with
  | .free => s
  | .held | .upgrading =>
    s |> onlyIf (decide (r.state = .upgrading)) (endUpgrade .loanEnded slot)
      |> cancelLoan t h why.cancelStatus
      |> closeOrEnd t h (.revoked why) (decide (r.state = .upgrading))
      |> notifyRevoked r.holder h r.extent why
  | .closing =>
    s |> closeLoan slot (.revoked why)
      |> cancelLoan t h why.cancelStatus
      |> (fun s => onlyIf (decide ((s.loan slot).outstanding = 0)) (endLoan t slot (.revoked why)) s)
      |> notifyRevoked r.holder h r.extent why

/-- The slots of the loans on a set of extents. -/
def State.slotsOn (s : State) (es : List Nat) : List Nat :=
  (s.loans.table.filter (fun x => decide (x.2.state ≠ .free) && decide (x.2.extent ∈ es))).map (·.1)

/-- The extents of a set that have waiting claim entries. -/
def State.queuesOn (s : State) (es : List Nat) : List Nat :=
  es.filter (fun e => !(s.xl e).queue.isEmpty)

/-- Claim entries on a set of extents are refused (R31), extents in an open order; within one queue the order is the
model's (assumption 41). -/
def refuseQueues (st : Status) (es : List Nat) (s : State) : State :=
  forEachFree (s.queuesOn es) (refuseQueue st) s

/-- Every loan on a set of extents is revoked, in an open order (R40). -/
def revokeAll (t : Tests) (why : Reason) (es : List Nat) (s : State) : State :=
  forEachFree (s.slotsOn es) (revoke t why) s

/-! ### Failure and loss of a bay -/

/-- A bay with its third consecutive timeout enters FAILED (R76). -/
def failBay (b : Nat) (s : State) : State :=
  s |> updBay b (fun y => { y with state := .failed, serviceOwed := none })
    |> replyOwed (s.bay b).serviceOwed .bayDown
    |> refuseQueues .bayDown (s.bayExtents b)
    |> revokeAll Tests.all .bayFailed (s.bayExtents b)
    |> cancelQueued Tests.all true .bayDown b (fun _ => true)
    |> raise .bayFailed ⟨b, 0, 0⟩

/-- The transfer in flight, if any, ends BAY_LOST (R77 step 4). -/
def loseInFlight (b : Nat) (s : State) : State :=
  match (s.bay b).inFlight with
  | some fl => endInFlight b fl .bayLost [] id s
  | none => s

/-- A bay that is not ABSENT loses its link (R77). -/
def loseBay (b : Nat) (s : State) : State :=
  s |> updBay b (fun y => { y with state := .absent, capacity := 0, timeouts := 0, serviceOwed := none })
    |> replyOwed (s.bay b).serviceOwed .bayDown
    |> refuseQueues .bayDown (s.bayExtents b)
    |> revokeAll Tests.all .bayLost (s.bayExtents b)
    |> loseInFlight b
    |> cancelQueued Tests.all true .bayLost b (fun _ => true)
    |> raise .bayPresence ⟨b, BayState.absent.code, 0⟩

/-- A disk is reported on an ABSENT bay (R78). -/
def presentBay (b capacity : Nat) (s : State) : State :=
  s |> updBay b (fun y => { y with state := .ready, capacity := min capacity Config.blockSpace, timeouts := 0 })
    |> raise .bayPresence ⟨b, BayState.ready.code, 0⟩

/-- The transfer in flight times out (R75): the count rises, the transfer ends BAY_TIMEOUT, and at the
third in a row the bay fails before the issue test. -/
def timeOutTransfer (b : Nat) (s : State) : State :=
  match (s.bay b).inFlight with
  | some fl =>
    s |> updBay b (fun y => { y with timeouts := y.timeouts + 1 })
      |> endInFlight b fl .bayTimeout []
          (onlyIf (decide (Config.failCount ≤ (s.bay b).timeouts + 1)) (failBay b))
  | none => s

/-- The extents a completed SERVICE WRITE updates (R5, R85): none for other kinds, none where the reply
was sent at a Lending Reset. -/
def State.serviceSpan (s : State) (b : Nat) (fl : InFlight) : List Nat :=
  if decide (fl.transfer.kind = .serviceWrite) && !fl.replySent then
    s.lookupSpan b fl.transfer.first fl.transfer.count
  else []

/-- A success report ends the transfer in flight (R72); a SERVICE WRITE's updates come first (R85), in an
open order. -/
def succeedTransfer (b : Nat) (fl : InFlight) (data : List Byte) (s : State) : State :=
  s |> updBay b (fun y => { y with timeouts := 0 })
    |> forEachFree (s.serviceSpan b fl) serviceUpdate
    |> endInFlight b fl .ok data id

end Sys2Proof.Machine
end

