-- ==== Sys2Proof/Machine/FenceOps.lean ====
section
/-! DEFINITION. The fence check and the Held List (R102 to R108). -/

namespace Sys2Proof.Machine

/-- The kind a request presents to the fence check (R104). -/
inductive FencedKind where
  | sharedClaim | soleClaim | read | write | openRead
deriving DecidableEq, Repr

/-- Which request kinds a fence kind covers (R105). -/
def FenceKind.covers : FenceKind → FencedKind → Bool
  | .soleClaim, .soleClaim => true
  | .soleClaim, _ => false
  | .write, .write => true
  | .write, _ => false
  | .any, _ => true

/-- A fence is enabled when its local or its global enable is set (R102). -/
def Fence.enabled (f : Fence) : Bool := f.localEnable || f.globalEnable

/-- The fence overlaps `count` blocks from `first` on a bay (R103). -/
def Fence.overlaps (f : Fence) (b first count : Nat) : Bool :=
  decide (f.bay = b) && decide (first < f.base + 2 ^ f.k) && decide (f.base < first + count)

/-- A fence matches a request (R105); the enables are not consulted. -/
def Fence.matches (f : Fence) (k : FencedKind) (b first count : Nat) : Bool :=
  f.overlaps b first count && f.kind.covers k

/-- The numbers of the matching fences, lowest first. -/
def State.matchingFences (s : State) (k : FencedKind) (b first count : Nat) : List Nat :=
  (List.range 8).filter (fun i => (s.fence i).matches k b first count)

/-- A set of fences as marks: F0 is 1, F1 is 2, up to F7 is 128 (R152). -/
def fenceSet (l : List Nat) : BitVec 8 := l.foldl (fun m i => m ||| (1#8 <<< i)) 0

/-- The Fence Unit's answer (R106). -/
inductive FenceAnswer where
  | pass
  | refuse
  /-- held by these matching enabled fences -/
  | hold (by_ : List Nat)
deriving DecidableEq, Repr

/-- The decision of a fence check (R106). -/
def State.fenceAnswer (s : State) (k : FencedKind) (b first count : Nat) : FenceAnswer :=
  let en := (s.matchingFences k b first count).filter (fun i => (s.fence i).enabled)
  if en.isEmpty then .pass
  else if en.any (fun i => decide ((s.fence i).action = .refuse)) then .refuse
  else .hold en

/-- Set the hit flags of a list of fences (R106). -/
def setHits (l : List Nat) (s : State) : State :=
  setFences (Vector.ofFn (fun i => { s.fence i.val with hit := (s.fence i.val).hit || decide (i.val ∈ l) })) s

/-- What a check that stops a request does to the Fence Unit (R106): every matching fence, enabled or not,
takes a hit, and FENCE_HIT names the lowest-numbered matching enabled fence. -/
def recordHit (k : FencedKind) (b first count node e : Nat) (s : State) : State :=
  let l := s.matchingFences k b first count
  s |> setHits l
    |> raise .fenceHit ⟨node, e, ((l.filter (fun i => (s.fence i).enabled)).headD 0)⟩

/-- The lowest-numbered free place of the Held List (R108). -/
def State.freePlace (s : State) : Option Nat :=
  (List.range Config.heldSize).find? (fun i => (s.fences.held.look i).isNone)

/-- A held request takes a place (R108); with all places taken it is refused FENCED. -/
def holdRequest (q : Req) (args : HeldArgs) (by_ : List Nat) (s : State) : State :=
  match s.freePlace with
  | some i =>
    s |> setHeld (s.fences.held.put i ⟨q, args, Config.holdLimit, fenceSet by_⟩)
      |> raise .fenceHold ⟨q.node, 0, i⟩
  | none => reply q .fenced s

/-- The fence step of a request's checks (R104, R106): `next` goes on where the check passes. -/
def fenceStep (k : FencedKind) (b first count e : Nat) (q : Req) (args : HeldArgs) (next : State → State)
    (s : State) : State :=
  match s.fenceAnswer k b first count with
  | .pass => next s
  | .refuse => s |> recordHit k b first count q.node e |> reply q .fenced
  | .hold by_ => s |> recordHit k b first count q.node e |> holdRequest q args by_

end Sys2Proof.Machine
end

