-- ==== Sys2Proof/Machine/Operands.lean ====
section
/-! DEFINITION. How each request code reads its frame: operands (R152), item bodies (R156) and legal values (R160 step 6). -/

namespace Sys2Proof.Machine

/-! ### Fields -/

/-- The slot of the handle field. -/
def slotOf (f : Frame) : Nat := f.slot.toNat

/-- The handle field as slot and issue (its issue is 0..15 where the frame is legal). -/
def handleOf (f : Frame) : Handle := ⟨f.slot.toNat, f.issue.setWidth 4⟩

/-- The extent field. -/
def extentOf (f : Frame) : Nat := f.extent.toNat

/-- The offset field. -/
def offsetOf (f : Frame) : Nat := f.offset.toNat

/-- arg A. -/
def argAOf (f : Frame) : Nat := f.argA.toNat

/-- arg B. -/
def argBOf (f : Frame) : Nat := f.argB.toNat

/-- The mode of a CLAIM: arg A = 4 × mode + requested class (R152). -/
def claimMode (f : Frame) : Mode := if argAOf f / 4 = 1 then .sole else .shared

/-- The requested class of a CLAIM (R152). -/
def claimClass (f : Frame) : Nat := argAOf f % 4

/-- The first block of a service transfer: block high and offset (R150, R152). -/
def serviceBlock (f : Frame) : Nat := f.blockHigh.toNat * 2 ^ 32 + offsetOf f

/-- The commit mode: arg A = 2 × on-limit action + mode (R152). -/
def commitMode (f : Frame) : CommitMode := if argAOf f % 2 = 1 then .forced else .orderly

/-- The on-limit action (R152). -/
def commitOnLimit (f : Frame) : OnLimit := if argAOf f / 2 = 1 then .force else .discard

/-- The service mode (R152, R154). -/
def serviceMode (f : Frame) : CommitMode := if argAOf f = 1 then .forced else .orderly

/-- A byte of the body. -/
def bodyByte (f : Frame) (n : Nat) : Nat := (byteAt f.body n).toNat

/-- A field of `len` bytes of the body, at byte `n`, most significant first (R156; assumption 10). -/
def bodyField (f : Frame) (n len : Nat) : Nat := beNat ((f.body.drop n).take len)

/-- The extent record item of a STAGE EXTENT body (R123, R156): its extent number and its last three fields
are ignored. Policy settings are Write 4, Share 2, Open 1 added together. -/
def stagedRecordOf (f : Frame) : ExtentRec where
  bay := bodyByte f 2
  base := bodyField f 3 5
  k := bodyByte f 8
  write := (byteAt f.body 9).getLsbD 2
  share := (byteAt f.body 9).getLsbD 1
  openR := (byteAt f.body 9).getLsbD 0
  ceiling := bodyByte f 10

/-- The fence of a SET FENCE body (R114, R156): fence number, hit flag and enabled fields are ignored; the
hit flag given is kept. -/
def fenceOf (f : Frame) (hit : Bool) : Fence where
  bay := bodyByte f 1
  base := bodyField f 2 5
  k := bodyByte f 7
  kind := match bodyByte f 8 with
    | 0 => .soleClaim
    | 1 => .write
    | _ => .any
  action := if bodyByte f 9 = 1 then .hold else .refuse
  localEnable := decide (bodyByte f 10 = 1)
  globalEnable := decide (bodyByte f 11 = 1)
  hit := hit

/-- The quota of a node setting item (R156). -/
def settingQuota (f : Frame) : Nat := bodyByte f 0
/-- The write permission of a node setting item. -/
def settingWrite (f : Frame) : Bool := decide (bodyByte f 1 = 1)
/-- The lease ceiling of a node setting item. -/
def settingCeiling (f : Frame) : Nat := bodyByte f 2
/-- The role request of a node setting item: AUTHORITY. -/
def settingTakesRole (f : Frame) : Bool := decide (bodyByte f 3 = 1)

/-! ### Legal values (R160 step 6) -/

/-- Values illegal for every code: a kind other than REQUEST, a tag above 63. -/
def legalHeader (f : Frame) : Bool := decide (f.kind = 1) && decide (f.tag.toNat ≤ 63)

/-- An extent field that names an extent. -/
def legalExtent (f : Frame) : Bool := decide (extentOf f ≤ 4095)

/-- An extent field that names a bay. -/
def legalBay (f : Frame) : Bool := decide (extentOf f ≤ 23)

/-- A handle slot. -/
def legalSlot (f : Frame) : Bool := decide (slotOf f ≤ 8191)

/-- A handle: slot, issue and byte 11. -/
def legalHandle (f : Frame) : Bool :=
  legalSlot f && decide (f.issue.toNat ≤ 15) && decide (f.handlePad = 0)

/-- A count of blocks. -/
def legalCount (f : Frame) : Bool := decide (argBOf f = 1) || decide (argBOf f = 2)

/-- A node id in the offset field. -/
def legalNodeId (f : Frame) : Bool := decide (1 ≤ offsetOf f) && decide (offsetOf f ≤ 4095)

/-- The body length a code requires. -/
def legalBody (n : Nat) (f : Frame) : Bool := decide (f.body.length = n)

/-- The fields of CLAIM. -/
def legalClaim (f : Frame) : Bool := legalExtent f && decide (argAOf f ≤ 7) && legalBody 0 f
/-- The fields of RENEW, DOWNGRADE, RELEASE and REVOKE LOAN. -/
def legalByHandle (f : Frame) : Bool := legalHandle f && legalBody 0 f
/-- The fields of READ. -/
def legalRead (f : Frame) : Bool := legalHandle f && legalCount f && legalBody 0 f
/-- The fields of WRITE. -/
def legalWrite (f : Frame) : Bool :=
  legalHandle f && legalCount f && legalBody (argBOf f * Config.blockBytes) f
/-- The fields of OPEN READ. -/
def legalOpenRead (f : Frame) : Bool := legalExtent f && legalCount f && legalBody 0 f
/-- The fields of WATCH. -/
def legalWatch (f : Frame) : Bool := legalExtent f && decide (argAOf f ≤ 1) && legalBody 0 f
/-- The fields of UNWATCH, READ EXTENT, UNSTAGE EXTENT, READ STAGED and READ WATCHES. -/
def legalByExtent (f : Frame) : Bool := legalExtent f && legalBody 0 f
/-- The fields of READ LOAN: the slot part alone. -/
def legalReadLoan (f : Frame) : Bool := legalSlot f && legalBody 0 f
/-- No fields and no body: NODE STATUS, OPEN LOAD, DISCARD LOAD, CLEAR FENCE HITS, CLEAR EVENTS (whose sets
may be any), READ FENCES, LIST HELD, the clock requests but SET LEASE CLASS, READ EVENTS, LENDING RESET. -/
def legalPlain (f : Frame) : Bool := legalBody 0 f
/-- The fields of STAGE EXTENT. -/
def legalStage (f : Frame) : Bool := legalExtent f && legalBody 14 f && decide (bodyByte f 9 ≤ 7)
/-- The fields of COMMIT LOAD. -/
def legalCommit (f : Frame) : Bool := decide (argAOf f ≤ 3) && decide (argBOf f ≠ 0) && legalBody 0 f
/-- The fields of SERVICE BAY. -/
def legalServiceBay (f : Frame) : Bool := legalBay f && decide (argAOf f ≤ 1) && legalBody 0 f
/-- The fields of SERVICE READ. -/
def legalServiceRead (f : Frame) : Bool :=
  legalBay f && decide (f.blockHigh.toNat ≤ 15) && legalCount f && legalBody 0 f
/-- The fields of SERVICE WRITE. -/
def legalServiceWrite (f : Frame) : Bool :=
  legalBay f && decide (f.blockHigh.toNat ≤ 15) && legalCount f
    && legalBody (argBOf f * Config.blockBytes) f
/-- The fields of RETURN BAY and READ BAY. -/
def legalByBay (f : Frame) : Bool := legalBay f && legalBody 0 f
/-- The fields of SET FENCE: its item's kind, action and enables (its ranges are the Fence Unit's, R114). -/
def legalSetFence (f : Frame) : Bool :=
  decide (argAOf f ≤ 7) && legalBody 14 f && decide (bodyByte f 8 ≤ 2) && decide (bodyByte f 9 ≤ 1)
    && decide (bodyByte f 10 ≤ 1) && decide (bodyByte f 11 ≤ 1)
/-- The fields of RELEASE HELD and REJECT HELD: entry, tag of the held request (assumption 12), node id. -/
def legalHeld (f : Frame) : Bool :=
  decide (argAOf f ≤ 15) && decide (argBOf f ≤ 63) && legalNodeId f && legalBody 0 f
/-- A node setting item. -/
def legalSetting (f : Frame) : Bool :=
  legalNodeId f && legalBody 4 f && decide (1 ≤ settingQuota f) && decide (settingQuota f ≤ 64)
    && decide (bodyByte f 1 ≤ 1) && decide (settingCeiling f ≤ 3) && decide (bodyByte f 3 ≤ 1)
/-- The fields of ENROLL NODE: a role request of AUTHORITY is illegal too. -/
def legalEnroll (f : Frame) : Bool := legalSetting f && !settingTakesRole f
/-- The fields of BAR NODE, UNBAR NODE, REMOVE NODE and READ NODE. -/
def legalByNode (f : Frame) : Bool := legalNodeId f && legalBody 0 f
/-- The fields of SET LEASE CLASS. -/
def legalLeaseClass (f : Frame) : Bool :=
  decide (argAOf f ≤ 3) && decide (f.units.toNat ≠ 0) && legalBody 0 f
/-- The fields of SET EVENT LEVELS. -/
def legalLevels (f : Frame) : Bool := legalBody 16 f && f.body.all (fun b => decide (b.toNat ≤ 3))
/-- The fields of SET MASK LEVEL. -/
def legalMask (f : Frame) : Bool := decide (argAOf f ≤ 3) && legalBody 0 f

end Sys2Proof.Machine
end

