-- ==== Sys2Proof/Machine/Ingress.lean ====
section
/-! DEFINITION. Ingress of frames and the node ports' links (R140, R157 to R163): MALFORMED_FRAME, UNKNOWN_CODE_FRAME, PORT_LINK_DOWN, PORT_LINK_UP, FRAME_LEAVES. -/

namespace Sys2Proof.Machine

/-- What the switch keeps of a frame taken at a port: its reservation records the port's link round (R163). -/
def State.reqOf (s : State) (p : PortId) (code : Nat) (f : Frame) : Req :=
  ⟨code, f.node.toNat, f.tag.toNat, p, (s.port p).round, false⟩

/-- The first ingress check that fails (R160), in its order; none when the frame is admitted. A code that is
no render code counts as a management code at step 4. -/
def State.ingressRefusal (s : State) (code : Nat) (f : Frame) (legal : Bool) : Option Status :=
  match s.node f.node.toNat with
  | none => some .unknownNode
  | some r =>
    if r.state = .barred then some .barred
    else if r.tags.getLsbD f.tag.toNat then some .tagBusy
    else if !isRenderCode code && decide (r.role ≠ .authority) then some .notAuthority
    else if isRenderCode code && decide (r.role ≠ .render) then some .notPermitted
    else if !(legalHeader f && legal) then some .badRequest
    else none

/-- A frame takes a reply reservation (R159). -/
def takeReservation (p : PortId) (s : State) : State :=
  setPort p { s.port p with reservations := (s.port p).reservations + 1 } s

/-- The sender's record at admission (R140): the tag joins the tags in use, the learned port is the arrival
port, and ENROLLED becomes PRESENT. -/
def NodeRec.admitted (r : NodeRec) (q : Req) : NodeRec :=
  { r with
    tags := r.tags ||| tagMark q.tag
    learned := some q.port
    state := if r.state = .enrolled then .present else r.state }

/-- The node holds the AUTHORITY role. -/
def State.isAuthority (s : State) (n : Nat) : Bool :=
  match s.node n with
  | some r => decide (r.role = .authority)
  | none => false

/-- Admission (R140); a frame from the authority makes the notice test (R167). -/
def admitReq (q : Req) (s : State) : State :=
  s |> updNode q.node (fun r => r.admitted q) |> onlyIf (s.isAuthority q.node) noticeTest

/-- A frame that has passed the frame tests arrives at a port (R159, R160, R163): a DOWN port takes no
frame; at 448 reservations it is dropped with INGRESS_DROP; otherwise it takes a reservation and is refused
by the first failing check or admitted and handed to its block, `take`. -/
def ingress (p : PortId) (code : Nat) (f : Frame) (legal : Bool) (take : Req → State → State)
    (s : State) : State :=
  if (s.port p).up then
    if Config.replyPlaces ≤ (s.port p).reservations then raise .ingressDrop ⟨f.node.toNat, p.val, 0⟩ s
    else
      match s.ingressRefusal code f legal with
      | some st => s |> takeReservation p |> refuseAtIngress (s.reqOf p code f) st
      | none => s |> takeReservation p |> admitReq (s.reqOf p code f) |> take (s.reqOf p code f)
  else s

/-- A render request is refused BARRED by its block, before any other check, if its sender is BARRED when
the block takes it (R146). -/
def unlessBarred (take : Req → State → State) (q : Req) (s : State) : State :=
  if s.isBarred q.node then reply q .barred s else take q s

/-- What every meaning answers with: no command of the AL24 stops it. -/
abbrev Result := Host.Outcome State Fault Refusal

/-- MALFORMED_FRAME (R158): the frame is discarded with no reply and BAD_FRAME is raised with the port. A
payload that passes the frame tests is no malformed frame, and nothing is done (assumption 18). -/
def execMalformedFrame (p : PortId) (payload : List Byte) (s : State) : Result :=
  .next (onlyIf ((s.port p).up && !frameOk payload) (raise .badFrame ⟨0, p.val, 0⟩) s)

/-- UNKNOWN_CODE_FRAME (R153, R160): the frame takes a reservation and its code is an illegal value at
step 6, if no earlier check refuses it. -/
def execUnknownCodeFrame (p : PortId) (code : BitVec 8) (f : Frame) (s : State) : Result :=
  .next (ingress p code.toNat f false (fun _ s => s) s)

/-- The tag of a discarded frame leaves its node's tags in use, unless it does not hold it (R163). -/
def discardReady (x : Ready) (s : State) : State :=
  onlyIf x.freesTag (freeTag x.frame.node x.frame.tag) s

/-- PORT_LINK_DOWN (R163): on an UP port the link is DOWN, the link round steps, every frame of the egress
list is discarded, every reservation is released and both counts are 0. -/
def execPortLinkDown (p : PortId) (s : State) : Result :=
  .next (onlyIf (s.port p).up
    (fun s => s |> setPort p ⟨false, (s.port p).round + 1, 0, 0, []⟩ |> forEach (s.port p).egress discardReady) s)

/-- The Event Unit is told that a notice place is free at a port (R162, R163): the notice test is made if
that is the authority's learned port (R167). -/
def placeFree (p : PortId) (s : State) : State :=
  match s.authority with
  | some (_, r) => onlyIf (decide (r.learned = some p)) noticeTest s
  | none => s

/-- PORT_LINK_UP (R163): a DOWN port is UP, with an empty list and both counts 0, and the Event Unit is told. -/
def execPortLinkUp (p : PortId) (s : State) : Result :=
  .next (onlyIf (!(s.port p).up)
    (fun s => s |> setPort p ⟨true, (s.port p).round, 0, 0, []⟩ |> placeFree p) s)

/-- The head of the egress list has left (R161, R162): a reply releases its reservation and frees its tag,
a notice frees its place and the Event Unit is told. -/
def headLeaves (p : PortId) (x : Ready) (rest : List Ready) (s : State) : State :=
  if x.frame.notice then
    s |> setPort p { s.port p with egress := rest, notices := (s.port p).notices - 1 } |> placeFree p
  else
    s |> setPort p { s.port p with egress := rest, reservations := (s.port p).reservations - 1 }
      |> discardReady x

/-- FRAME_LEAVES (R161): the link of an UP port sends the head of its list; with the link DOWN or the list
empty nothing leaves. -/
def execFrameLeaves (p : PortId) (s : State) : Result :=
  .next (if (s.port p).up then
      match (s.port p).egress with
      | x :: rest => headLeaves p x rest s
      | [] => s
    else s)

end Sys2Proof.Machine
end

