-- ==== Sys2Proof/Machine/Loans.lean ====
section
/-! DEFINITION. The Loan Engine's requests and steps: CLAIM, RENEW, DOWNGRADE, RELEASE, NODE_STATUS, REVOKE_LOAN, READ_LOAN, LOAN_END, GRANT_FROM_QUEUE, CONVERSION (R24 to R41, R46, R47). -/

namespace Sys2Proof.Machine

/-! ### CLAIM -/

/-- Steps 3 to 7 of a claim's checks, in order (R24). -/
def State.claimRefusal (s : State) (n e : Nat) (mode : Mode) (r : ExtentRec) : Option Status :=
  match s.effective r with
  | .closed why => some why
  | .lent pol =>
    if !pol.allows mode then some .notPermitted
    else if decide (mode = .sole) && !(s.node n).elim false (·.write) then some .notPermitted
    else if (s.xl e).drainMark then some .mapPending
    else if (s.xl e).queue.any (fun c => decide (c.req.node = n)) then some .duplicate
    else none

/-- The loan a node holds on an extent. -/
def State.ownLoan (s : State) (n e : Nat) : Option (Nat × LoanRec) :=
  (s.loansOn e).find? (fun x => decide (x.2.holder = n))

/-- Held count plus waiting count has reached the quota (R24 step 9). -/
def State.quotaReached (s : State) (n : Nat) : Bool :=
  (s.node n).elim true (fun r => decide (r.quota ≤ r.held + r.waiting))

/-- The extent's state allows an immediate grant (R25): an empty queue and the mode's summary. -/
def State.grantsNow (s : State) (e : Nat) (mode : Mode) : Bool :=
  (s.xl e).queue.isEmpty &&
    match mode with
    | .shared => decide (s.summary e ≠ .sole)
    | .sole => decide (s.summary e = .idle)

/-- The kind of a waiting claim of a mode (R22). -/
def Mode.entryKind : Mode → EntryKind
  | .shared => .shared
  | .sole => .sole

/-- A claim that must wait (R25): BUSY with wait limit 0, POOL_FULL with the pool full, else a new entry at
the tail of the queue. -/
def waitForLoan (q : Req) (e : Nat) (mode : Mode) (cls wait : Nat) (s : State) : State :=
  if wait = 0 then reply q .busy s
  else if Config.poolSize ≤ s.poolUsed then s |> reply q .poolFull |> raise .tableFull ⟨q.node, e, 0⟩
  else
    s |> updXl e (fun x => { x with queue := x.queue ++ [⟨q, mode.entryKind, cls, wait⟩] })
      |> updNode q.node (fun r => { r with waiting := r.waiting + 1 })

/-- The immediate decision of a claim (R25, R27). -/
def decideClaim (q : Req) (e : Nat) (mode : Mode) (cls wait : Nat) (s : State) : State :=
  if s.grantsNow e mode then
    match s.lowestFree with
    | some slot => grant q e mode cls slot s
    | none => s |> reply q .tableFull |> raise .tableFull ⟨q.node, e, 0⟩
  else waitForLoan q e mode cls wait s

/-- An upgrade (R32): CONFLICT with one pending, conversion at once if the loan is the one loan, else BUSY,
POOL_FULL, or an UPGRADE entry at the head of the queue. -/
def decideUpgrade (q : Req) (e cls wait slot : Nat) (s : State) : State :=
  if (s.pendingUpgrade e).isSome then reply q .conflict s
  else if s.isOnlyLoan e (s.handleOf slot) then
    s |> makeSole slot |> replyGranted q slot |> tidyWait e
  else if wait = 0 then reply q .busy s
  else if Config.poolSize ≤ s.poolUsed then s |> reply q .poolFull |> raise .tableFull ⟨q.node, e, 0⟩
  else
    s |> updXl e (fun x => { x with queue := ⟨q, .upgrade (s.handleOf slot), cls, wait⟩ :: x.queue })
      |> updLoan slot (fun r => if r.state = .held then { r with state := .upgrading } else r)
      |> tidyWait e

/-- A claim from step 3 of its checks (R24); a resumed claim enters here, first tested again for the
presence of its extent (R44). -/
def claimFrom3 (q : Req) (e : Nat) (mode : Mode) (cls wait : Nat) (s : State) : State :=
  match s.extent e with
  | none => reply q .noExtent s
  | some r =>
    match s.claimRefusal q.node e mode r with
    | some st => reply q st s
    | none =>
      match s.ownLoan q.node e with
      | some (slot, l) =>
        if mode = .sole ∧ l.state = .held ∧ l.mode = .shared then decideUpgrade q e cls wait slot s
        else reply q .duplicate s
      | none =>
        if s.quotaReached q.node then reply q .quota s else decideClaim q e mode cls wait s

/-- The kind a claim presents to the fences (R104). -/
def Mode.fencedKind : Mode → FencedKind
  | .shared => .sharedClaim
  | .sole => .soleClaim

/-- A claim from step 1 of its checks (R24). -/
def claimFrom1 (e : Nat) (mode : Mode) (cls wait : Nat) (q : Req) (s : State) : State :=
  match s.extent e with
  | none => reply q .noExtent s
  | some r =>
    fenceStep mode.fencedKind r.bay r.base r.size e q (.claim e mode cls wait)
      (claimFrom3 q e mode cls wait) s

/-- CLAIM (R24). -/
def execClaim (p : PortId) (f : Frame) (s : State) : Result :=
  .next (ingress p 1 f (legalClaim f)
    (unlessBarred (claimFrom1 (extentOf f) (claimMode f) (claimClass f) (argBOf f))) s)

/-! ### Requests that name a loan -/

/-- The handle test (R19): the slot is not FREE, its issue is the handle's and its holder is the sender. -/
def State.holds (s : State) (n : Nat) (h : Handle) : Bool :=
  s.live h && decide ((s.loan h.slot).holder = n)

/-- A request on a handle: STALE_LOAN where the handle test fails (R19). -/
def withHandle (h : Handle) (take : Req → State → State) (q : Req) (s : State) : State :=
  if s.holds q.node h then take q s else reply q .staleLoan s

/-- RENEW on a loan (R35). -/
def renewLoan (slot : Nat) (q : Req) (s : State) : State :=
  if (s.loan slot).state = .closing then reply q .loanEnded s
  else
    s |> updLoan slot (fun r => { r with remaining := s.units r.cls })
      |> replyWith q .ok (fun o => { o with units := s.units (s.loan slot).cls })

/-- RENEW (R35). -/
def execRenew (p : PortId) (f : Frame) (s : State) : Result :=
  .next (ingress p 2 f (legalByHandle f) (unlessBarred (withHandle (handleOf f) (renewLoan (slotOf f)))) s)

/-- The loan record after a downgrade (R34). -/
def LoanRec.downgraded (r : LoanRec) : LoanRec := { r with mode := .shared, writes := 0, doubtful := false }

/-- DOWNGRADE on a loan (R34). Its OK comes after the GRANTED replies of the re-evaluation that it sets off: R34
orders the effects and not the frames, and the model chooses (assumption 38). -/
def downgradeLoan (slot : Nat) (q : Req) (s : State) : State :=
  let r := s.loan slot
  if r.state = .closing then reply q .loanEnded s
  else if r.mode = .shared then reply q .notPermitted s
  else if r.outstanding ≠ 0 then reply q .busy s
  else
    s |> loanUpdate r.extent (decide (0 < r.writes)) r.doubtful
      |> updLoan slot LoanRec.downgraded
      |> reevaluate r.extent
      |> (fun s => replyWith q .ok (withPair s r.extent) s)

/-- DOWNGRADE (R34). -/
def execDowngrade (p : PortId) (f : Frame) (s : State) : Result :=
  .next (ingress p 3 f (legalByHandle f) (unlessBarred (withHandle (handleOf f) (downgradeLoan (slotOf f)))) s)

/-- A RELEASE with transfers outstanding (R36): the loan is left CLOSING with the reply owed. -/
def releaseLater (slot : Nat) (q : Req) (s : State) : State :=
  let r := s.loan slot
  s |> onlyIf (decide (r.state = .upgrading)) (endUpgrade .loanEnded slot)
    |> closeLoan slot .released
    |> updLoan slot (fun x => { x with releaseOwed := some q })
    |> onlyIf (decide (r.state = .upgrading)) (reevaluate r.extent)

/-- A RELEASE with nothing outstanding (R36): the loan is freed, and OK follows the loan-end effects with
the generation and torn mark after them; the tests of the end come last (assumptions 7 and 40). -/
def releaseNow (slot : Nat) (q : Req) (s : State) : State :=
  let e := (s.loan slot).extent
  s |> freeLoan slot .released
    |> serveAfterFree e
    |> (fun s => replyWith q .ok (withPair s e) s)
    |> afterEnd Tests.all e

/-- RELEASE on a loan (R36). -/
def releaseLoan (slot : Nat) (q : Req) (s : State) : State :=
  if (s.loan slot).state = .closing then reply q .loanEnded s
  else if (s.loan slot).outstanding = 0 then releaseNow slot q s
  else releaseLater slot q s

/-- RELEASE (R36). -/
def execRelease (p : PortId) (f : Frame) (s : State) : Result :=
  .next (ingress p 4 f (legalByHandle f) (unlessBarred (withHandle (handleOf f) (releaseLoan (slotOf f)))) s)

/-! ### Reading loan state, revoking -/

/-- NODE STATUS (R47): the waiting count and one loan status item for each loan of the sender. -/
def nodeStatus (q : Req) (s : State) : State :=
  replyWith q .ok (fun o =>
    { o with
      argB := (s.node q.node).elim 0 (·.waiting)
      body := (s.loansOf q.node).map (fun x =>
        .loanStatus ⟨x.1, x.2.issue⟩ x.2.extent x.2.mode.code x.2.state.code x.2.cls x.2.remaining
          x.2.outstanding) }) s

/-- NODE_STATUS (R47). -/
def execNodeStatus (p : PortId) (f : Frame) (s : State) : Result :=
  .next (ingress p 10 f (legalPlain f) (unlessBarred nodeStatus) s)

/-- REVOKE LOAN (R41): the holder is not tested; OK follows the revocation. -/
def revokeLoan (h : Handle) (q : Req) (s : State) : State :=
  if s.live h then s |> revoke Tests.all .management h.slot |> reply q .ok else reply q .staleLoan s

/-- REVOKE_LOAN (R41). -/
def execRevokeLoan (p : PortId) (f : Frame) (s : State) : Result :=
  .next (ingress p 32 f (legalByHandle f) (revokeLoan (handleOf f)) s)

/-- The loan record item of a slot (R46, R156); what is owed is zero when nothing is (assumption 11). -/
def loanItem (s : State) (slot : Nat) : Item :=
  let r := s.loan slot
  .loanRecord slot r.issue.toNat r.state.code r.holder r.extent r.mode.code r.cls r.remaining r.writes
    (markCode r.doubtful) r.outstanding (causeCode r.cause) (causeReason r.cause)
    (markCode r.releaseOwed.isSome) (r.releaseOwed.elim 0 (·.tag)) (r.releaseOwed.elim 0 (·.port.val))

/-- READ LOAN (R46). -/
def readLoan (slot : Nat) (q : Req) (s : State) : State :=
  replyWith q .ok (fun o => { o with body := [loanItem s slot] }) s

/-- READ_LOAN (R46). -/
def execReadLoan (p : PortId) (f : Frame) (s : State) : Result :=
  .next (ingress p 33 f (legalReadLoan f) (readLoan (slotOf f)) s)

/-! ### The Loan Engine's own steps (assumption 3) -/

/-- LOAN_END (R38): the end of a CLOSING loan with nothing outstanding. -/
def execLoanEnd (slot : Fin 8192) (s : State) : Result :=
  .next (onlyIf (decide ((s.loan slot).state = .closing) && decide ((s.loan slot).outstanding = 0))
    (endLoan Tests.all slot ((s.loan slot).cause.getD .released)) s)

/-- GRANT_FROM_QUEUE (R28): the re-evaluation of a queue whose head is a SOLE or SHARED entry. -/
def execGrantFromQueue (e : Fin 4096) (s : State) : Result :=
  .next (match (s.xl e).queue with
    | c :: _ =>
      match c.kind with
      | .shared | .sole => reevaluate e s
      | .upgrade _ => s
    | [] => s)

/-- CONVERSION (R33): the UPGRADE at the head converts when its loan is the one loan on the extent. -/
def execConversion (e : Fin 4096) (s : State) : Result :=
  .next (match (s.xl e).queue with
    | c :: _ =>
      match c.kind with
      | .upgrade h => onlyIf (s.isOnlyLoan e h && !(s.xl e).drainMark) (convertHead e c h) s |> tidyWait e
      | .shared | .sole => s
    | [] => s)

end Sys2Proof.Machine
end

