-- ==== Sys2Proof/Machine/Transfers.lean ====
section
/-! DEFINITION. Lending transfers: READ, WRITE, OPEN_READ, and the bay's ISSUE, OPERATION_END_REPORT, TRANSFER_TICK, TRANSFER_TIMEOUT (R42 to R45, R70 to R75). -/

namespace Sys2Proof.Machine

/-- Bay state and bay queue, steps 6 and 7 of R42 and R43. -/
def State.bayRefusal (s : State) (b : Nat) : Option Status :=
  match (s.bay b).state with
  | .absent | .failed => some .bayDown
  | .service => some .inService
  | .ready | .servicePending =>
    if Config.bayQueueSize ≤ (s.bay b).queue.length then some .bayFull else none

/-- The kind of a loan transfer. -/
def loanKind (write : Bool) : TransferKind := if write then .write else .read

/-- A checked loan transfer joins its bay's queue and its loan's outstanding count rises (R42). -/
def queueLoanTransfer (write : Bool) (h : Handle) (r : ExtentRec) (offset count : Nat) (data : List Byte)
    (q : Req) (s : State) : State :=
  s |> updLoan h.slot (fun l => { l with outstanding := l.outstanding + 1 })
    |> joinBay r.bay ⟨loanKind write, q, some h, some (s.loan h.slot).extent, r.base + offset, count, data⟩

/-- A READ or WRITE from step 4 of its checks (R42), on a handle that its sender holds. -/
def transferFrom4 (write : Bool) (h : Handle) (offset count : Nat) (data : List Byte) (q : Req) (s : State) :
    State :=
  match (s.loan h.slot).state with
  | .free | .closing => reply q .loanEnded s
  | .held | .upgrading =>
    if write && decide ((s.loan h.slot).mode ≠ .sole) then reply q .notPermitted s
    else
      match s.extent (s.loan h.slot).extent with
      | none => reply q .range s
      | some r =>
        match s.bayRefusal r.bay with
        | some st => reply q st s
        | none => queueLoanTransfer write h r offset count data q s

/-- A READ or WRITE from step 2 of its checks (R42): range, then the fences. A loan on an absent extent
cannot be (R3); its blocks lie in no extent (assumption 25). -/
def transferFrom2 (write : Bool) (h : Handle) (offset count : Nat) (data : List Byte) (q : Req) (s : State) :
    State :=
  match s.extent (s.loan h.slot).extent with
  | none => reply q .range s
  | some r =>
    if r.size < offset + count then reply q .range s
    else
      fenceStep (if write then .write else .read) r.bay (r.base + offset) count (s.loan h.slot).extent q
        (.transfer write h.slot h.issue (s.loan h.slot).extent offset count data) (transferFrom4 write h offset count data q) s

/-- READ (R42). -/
def execRead (p : PortId) (f : Frame) (s : State) : Result :=
  .next (ingress p 5 f (legalRead f) (unlessBarred (withHandle (handleOf f)
    (transferFrom2 false (handleOf f) (offsetOf f) (argBOf f) []))) s)

/-- WRITE (R42). -/
def execWrite (p : PortId) (f : Frame) (s : State) : Result :=
  .next (ingress p 6 f (legalWrite f) (unlessBarred (withHandle (handleOf f)
    (transferFrom2 true (handleOf f) (offsetOf f) (argBOf f) f.body))) s)

/-- An OPEN READ from step 6 of its checks (R43): bay state and queue, then it joins the queue and its
extent's open-read count rises. -/
def openReadFrom6 (e : Nat) (r : ExtentRec) (offset count : Nat) (q : Req) (s : State) : State :=
  match s.bayRefusal r.bay with
  | some st => reply q st s
  | none =>
    s |> updXl e (fun x => { x with openReads := x.openReads + 1 })
      |> joinBay r.bay ⟨.openRead, q, none, some e, r.base + offset, count, []⟩

/-- Steps 2 to 4 of an OPEN READ's checks (R43). -/
def State.openReadRefusal (s : State) (e : Nat) (r : ExtentRec) (offset count : Nat) : Option Status :=
  match s.effective r with
  | .closed why => some why
  | .lent pol =>
    if !pol.allowsOpenRead then some .notPermitted
    else if (s.xl e).drainMark then some .mapPending
    else if r.size < offset + count then some .range
    else none

/-- An OPEN READ from step 1 of its checks (R43). -/
def openReadFrom1 (e offset count : Nat) (q : Req) (s : State) : State :=
  match s.extent e with
  | none => reply q .noExtent s
  | some r =>
    match s.openReadRefusal e r offset count with
    | some st => reply q st s
    | none =>
      fenceStep .openRead r.bay (r.base + offset) count e q (.openRead e offset count)
        (openReadFrom6 e r offset count q) s

/-- OPEN_READ (R43). -/
def execOpenRead (p : PortId) (f : Frame) (s : State) : Result :=
  .next (ingress p 7 f (legalOpenRead f)
    (unlessBarred (openReadFrom1 (extentOf f) (offsetOf f) (argBOf f))) s)

/-! ### Resumption (R44, R111) -/

/-- A drain that is FORCED or escalated affects the extent (R133). -/
def State.forcedDrain (s : State) (e : Nat) : Bool :=
  decide (s.loader.state = .draining) && decide (e ∈ s.loader.affected)
    && (decide (s.loader.mode = some .forced) || s.loader.escalated)

/-- A resumed OPEN READ (R44): presence, range against the record as it stands, MAP_PENDING in a forced
drain, then step 6 (assumption 24). -/
def resumeOpenRead (e offset count : Nat) (q : Req) (s : State) : State :=
  match s.extent e with
  | none => reply q .noExtent s
  | some r =>
    if r.size < offset + count then reply q .range s
    else if s.forcedDrain e then reply q .mapPending s
    else openReadFrom6 e r offset count q s

/-- A released held request takes up its checks at the step after its fence check (R44, R111). `q` carries
the pass mark. -/
def resume (args : HeldArgs) (q : Req) (s : State) : State :=
  match args with
  | .claim e mode cls wait => claimFrom3 q e mode cls wait s
  | .transfer write slot issue _ offset count data =>
    if s.holds q.node ⟨slot, issue⟩ then transferFrom4 write ⟨slot, issue⟩ offset count data q s
    else reply q .loanEnded s
  | .openRead e offset count => resumeOpenRead e offset count q s

/-! ### The bay's own steps -/

/-- ISSUE (R70; assumption 3). -/
def execIssue (b : BayId) (s : State) : Result := .next (issueTest b s)

/-- OPERATION_END_REPORT (R71): a report whose number is that of the transfer in flight ends it, with success
(R72) or BAY_ERROR (R73); any other is discarded. -/
def execOperationEndReport (b : BayId) (seq : BitVec 16) (o : DiskOutcome) (s : State) : Result :=
  .next (match (s.bay b).inFlight with
    | some fl =>
      if fl.seq = seq then
        match o with
        | .success data => succeedTransfer b fl data s
        | .mediaError => endInFlight b fl .bayError [] id s
      else s
    | none => s)

/-- One transfer tick on a bay (R75). -/
def Bay.ticked (y : Bay) : Bay :=
  { y with inFlight := y.inFlight.map (fun fl => { fl with ticks := fl.ticks + 1 }) }

/-- The transfer in flight has taken its 32 ticks (R75). -/
def State.timedOut (s : State) (b : Nat) : Bool :=
  match (s.bay b).inFlight with
  | some fl => decide (Config.timeoutTicks ≤ fl.ticks)
  | none => false

/-- TRANSFER_TICK (R65, R75): every transfer in flight counts one tick; those at 32 time out, bays in an
open order. -/
def execTransferTick (s : State) : Result :=
  let s := { s with bays := s.bays.map Bay.ticked }
  .next (forEachFree (allBays.filter s.timedOut) timeOutTransfer s)

/-- TRANSFER_TIMEOUT (R75; assumption 3). -/
def execTransferTimeout (b : BayId) (s : State) : Result :=
  .next (onlyIf (s.timedOut b) (timeOutTransfer b) s)

end Sys2Proof.Machine
end

