-- ==== Sys2Proof/Machine/Bays.lean ====
section
/-! DEFINITION. Bay presence and service: SERVICE_BAY, SERVICE_READ, SERVICE_WRITE, RETURN_BAY, READ_BAY, BAY_LINK_DOWN, BAY_LINK_UP, ENTRY_INTO_SERVICE (R77 to R87). -/

namespace Sys2Proof.Machine

/-- A FORCED SERVICE BAY (R81): the loans are revoked with reason SERVICE, and the queued OPEN READs are cancelled.
R81 puts its two points in no order, and the model makes all the revocations first (assumption 43); the OPEN READs are
answered in queue order (assumption 44). -/
def forceService (b : Nat) (s : State) : State :=
  s |> revokeAll Tests.all .service (s.bayExtents b)
    |> cancelQueued Tests.all false .cancelled b (fun x => decide (x.kind = .openRead))

/-- SERVICE BAY as the bay takes it (R80). -/
def serviceBay (b : Nat) (mode : CommitMode) (q : Req) (s : State) : State :=
  if (s.bay b).state = .ready then
    s |> updBay b (fun y => { y with state := .servicePending, serviceOwed := some q })
      |> refuseQueues .inService (s.bayExtents b)
      |> onlyIf (decide (mode = .forced)) (forceService b)
      |> entryTest b
  else reply q .bayState s

/-- SERVICE_BAY (R80). -/
def execServiceBay (p : PortId) (f : Frame) (s : State) : Result :=
  .next (ingress p 41 f (legalServiceBay f) (serviceBay (extentOf f) (serviceMode f)) s)

/-- A service transfer as the bay takes it (R84). -/
def serviceTransfer (kind : TransferKind) (b first count : Nat) (data : List Byte) (q : Req) (s : State) :
    State :=
  if (s.bay b).state ≠ .service then reply q .bayState s
  else if (s.bay b).capacity < first + count then reply q .range s
  else if Config.bayQueueSize ≤ (s.bay b).queue.length then reply q .bayFull s
  else joinBay b ⟨kind, q, none, none, first, count, data⟩ s

/-- SERVICE_READ (R84). -/
def execServiceRead (p : PortId) (f : Frame) (s : State) : Result :=
  .next (ingress p 42 f (legalServiceRead f)
    (serviceTransfer .serviceRead (extentOf f) (serviceBlock f) (argBOf f) []) s)

/-- SERVICE_WRITE (R84). -/
def execServiceWrite (p : PortId) (f : Frame) (s : State) : Result :=
  .next (ingress p 43 f (legalServiceWrite f)
    (serviceTransfer .serviceWrite (extentOf f) (serviceBlock f) (argBOf f) f.body) s)

/-- The bay becomes READY by RETURN BAY (R86), and the issue test is made (R70). -/
def readyBay (b : Nat) (q : Req) (s : State) : State :=
  s |> updBay b (fun y => { y with state := .ready, timeouts := 0 }) |> reply q .ok |> issueTest b

/-- RETURN BAY as the bay takes it (R86). -/
def returnBay (b : Nat) (q : Req) (s : State) : State :=
  match (s.bay b).state with
  | .service =>
    if (s.bay b).queue.isEmpty && (s.bay b).inFlight.isNone then readyBay b q s else reply q .busy s
  | .failed => readyBay b q s
  | .absent | .ready | .servicePending => reply q .bayState s

/-- RETURN_BAY (R86). -/
def execReturnBay (p : PortId) (f : Frame) (s : State) : Result :=
  .next (ingress p 44 f (legalByBay f) (returnBay (extentOf f)) s)

/-- The bay item (R87, R156). -/
def bayItem (b : Nat) (y : Bay) : Item :=
  match y.inFlight with
  | some fl =>
    .bay b y.state.code y.capacity y.timeouts y.queue.length (markCode y.serviceOwed.isSome) 1
      fl.transfer.kind.code fl.transfer.req.node fl.transfer.req.tag fl.transfer.handle fl.transfer.first
      fl.transfer.count fl.ticks (markCode fl.replySent)
  | none => .bayIdle b y.state.code y.capacity y.timeouts y.queue.length (markCode y.serviceOwed.isSome)

/-- The transfer item (R87, R156). -/
def transferItem (x : Transfer) : Item :=
  .transfer x.kind.code x.req.node x.req.tag x.handle x.extent x.first x.count

/-- READ BAY (R87). -/
def readBay (b : Nat) (q : Req) (s : State) : State :=
  replyWith q .ok (fun o =>
    { o with body := bayItem b (s.bay b) :: (s.bay b).queue.map transferItem }) s

/-- READ_BAY (R87). -/
def execReadBay (p : PortId) (f : Frame) (s : State) : Result :=
  .next (ingress p 45 f (legalByBay f) (readBay (extentOf f)) s)

/-- BAY_LINK_DOWN (R77): on a bay already ABSENT it changes nothing. -/
def execBayLinkDown (b : BayId) (s : State) : Result :=
  .next (onlyIf (decide ((s.bay b).state ≠ .absent)) (loseBay b) s)

/-- BAY_LINK_UP (R78); on a bay that is not ABSENT a link down comes first (R79). -/
def execBayLinkUp (b : BayId) (capacity : Nat) (s : State) : Result :=
  .next (s |> onlyIf (decide ((s.bay b).state ≠ .absent)) (loseBay b) |> presentBay b capacity)

/-- ENTRY_INTO_SERVICE (R82; assumption 3). -/
def execEntryIntoService (b : BayId) (s : State) : Result := .next (entryTest b s)

end Sys2Proof.Machine
end

