-- ==== Sys2Proof/Machine/EventUnit.lean ====
section
/-! DEFINITION. The Event Unit's requests and its notice step: SET_EVENT_LEVELS, SET_MASK_LEVEL, CLEAR_EVENTS, READ_EVENTS, EVENT_NOTICE (R167 to R170). -/

namespace Sys2Proof.Machine

/-- A record qualifies in one Event Unit that does not in another (R168). -/
def newlyQualifies (old new : EventUnit) : Bool :=
  (List.range 16).any (fun k =>
    ((new.records[k]?.getD EventRec.reset).qualifies new.mask)
      && !((old.records[k]?.getD EventRec.reset).qualifies old.mask))

/-- New levels or a new mask level (R168): the notice test is made when a record qualifies that did not
before, and its notices come before the reply. -/
def changeEvents (new : EventUnit) (q : Req) (s : State) : State :=
  s |> setEvents new |> onlyIf (newlyQualifies s.events new) noticeTest |> reply q .ok

/-- SET EVENT LEVELS: sixteen levels together (R168). -/
def takeEventLevels (f : Frame) (q : Req) (s : State) : State :=
  changeEvents { s.events with
    records := Vector.ofFn (fun i => { s.event i.val with level := bodyByte f i.val }) } q s

/-- SET_EVENT_LEVELS (R168). -/
def execSetEventLevels (p : PortId) (f : Frame) (s : State) : Result :=
  .next (ingress p 64 f (legalLevels f) (takeEventLevels f) s)

/-- SET MASK LEVEL (R168). -/
def takeMaskLevel (level : Nat) (q : Req) (s : State) : State :=
  changeEvents { s.events with mask := level } q s

/-- SET_MASK_LEVEL (R168). -/
def execSetMaskLevel (p : PortId) (f : Frame) (s : State) : Result :=
  .next (ingress p 65 f (legalMask f) (takeMaskLevel (argAOf f)) s)

/-- A record cleared (R169): flag, noticed mark and first detail; its level is kept. -/
def EventRec.cleared (r : EventRec) : EventRec := ⟨false, false, r.level, none⟩

/-- CLEAR EVENTS (R169). -/
def clearEvents (kinds : BitVec 16) (q : Req) (s : State) : State :=
  s |> setEvents { s.events with
        records := Vector.ofFn (fun i =>
          if kinds.getLsbD i.val then (s.event i.val).cleared else s.event i.val) }
    |> reply q .ok

/-- CLEAR_EVENTS (R169). -/
def execClearEvents (p : PortId) (f : Frame) (s : State) : Result :=
  .next (ingress p 66 f (legalPlain f) (clearEvents f.extent) s)

/-- READ EVENTS (R170): the sixteen records, kinds 0 to 15. -/
def readEvents (q : Req) (s : State) : State :=
  replyWith q .ok (fun o => { o with body := (List.range 16).map (fun k => eventItem k (s.event k)) }) s

/-- READ_EVENTS (R170). -/
def execReadEvents (p : PortId) (f : Frame) (s : State) : Result :=
  .next (ingress p 67 f (legalPlain f) readEvents s)

/-- EVENT_NOTICE (R167; assumption 3): one notice, where its conditions hold. -/
def execEventNotice (s : State) : Result := .next (noticeOnce s)

end Sys2Proof.Machine
end

