-- ==== Sys2Proof/Machine/Fences.lean ====
section
/-! DEFINITION. The Fence Unit's requests and hold timeout: SET_FENCE, CLEAR_FENCE_HITS, READ_FENCES, LIST_HELD, RELEASE_HELD, REJECT_HELD, HOLD_TIMEOUT (R109 to R118). -/

namespace Sys2Proof.Machine

/-- The limits a fence must meet (R102, R114). -/
def Fence.withinLimits (f : Fence) : Bool :=
  decide (f.bay ≤ 23) && decide (f.k ≤ Config.maxExponent) && decide (f.base % 2 ^ f.k = 0)
    && decide (f.base + 2 ^ f.k ≤ Config.blockSpace)

/-- SET FENCE as the Fence Unit takes it (R114). -/
def takeSetFence (i : Nat) (f : Frame) (q : Req) (s : State) : State :=
  let v := fenceOf f (s.fence i).hit
  if v.withinLimits then s |> setFences (s.fences.fences.setIfInBounds i v) |> reply q .ok
  else reply q .badRequest s

/-- SET_FENCE (R114). -/
def execSetFence (p : PortId) (f : Frame) (s : State) : Result :=
  .next (ingress p 47 f (legalSetFence f) (takeSetFence (argAOf f) f) s)

/-- CLEAR FENCE HITS as the Fence Unit takes it (R116). -/
def clearHits (marks : BitVec 8) (q : Req) (s : State) : State :=
  s |> setFences (Vector.ofFn (fun i =>
        { s.fence i.val with hit := (s.fence i.val).hit && !marks.getLsbD i.val }))
    |> reply q .ok

/-- CLEAR_FENCE_HITS (R116). -/
def execClearFenceHits (p : PortId) (f : Frame) (s : State) : Result :=
  .next (ingress p 48 f (legalPlain f) (clearHits f.argA) s)

/-- The fence item (R156). -/
def fenceItem (s : State) (i : Nat) : Item :=
  let f := s.fence i
  .fence i f.bay f.base f.k f.kind.code f.action.code (markCode f.localEnable) (markCode f.globalEnable)
    (markCode f.hit) (markCode f.enabled)

/-- READ FENCES (R117). -/
def readFences (q : Req) (s : State) : State :=
  replyWith q .ok (fun o =>
    { o with argB := s.fences.held.length, body := (List.range 8).map (fenceItem s) }) s

/-- READ_FENCES (R117). -/
def execReadFences (p : PortId) (f : Frame) (s : State) : Result :=
  .next (ingress p 49 f (legalPlain f) readFences s)

/-- The held item (R118, R156): a held claim's handle fields are zero, a held READ or WRITE gives its loan's extent
(R42), and an OPEN READ's handle is absent (R68). -/
def heldItem (i : Nat) (h : Held) : Item :=
  match h.args with
  | .claim e mode _ _ =>
    .heldClaim i h.req.node h.req.tag h.req.code e mode.code h.req.port.val h.remaining h.fences
  | .transfer _ slot issue e offset count _ =>
    .held i h.req.node h.req.tag h.req.code e (some ⟨slot, issue⟩) 0 offset count h.req.port.val
      h.remaining h.fences
  | .openRead e offset count =>
    .held i h.req.node h.req.tag h.req.code e none 0 offset count h.req.port.val h.remaining h.fences

/-- LIST HELD (R118): the entries in ascending number. -/
def listHeld (q : Req) (s : State) : State :=
  replyWith q .ok (fun o => { o with body := s.fences.held.map (fun x => heldItem x.1 x.2) }) s

/-- LIST_HELD (R118). -/
def execListHeld (p : PortId) (f : Frame) (s : State) : Result :=
  .next (ingress p 50 f (legalPlain f) listHeld s)

/-- An entry leaves the Held List and frees its place. -/
def dropHeld (i : Nat) (s : State) : State := setHeld (s.fences.held.drop i) s

/-- The entry of a place, if it holds a request of that node with that tag (R110). -/
def State.heldEntry (s : State) (i n t : Nat) : Option Held :=
  match s.fences.held.look i with
  | some h => if h.req.node = n ∧ h.req.tag = t then some h else none
  | none => none

/-- The two outcomes of a RELEASE HELD, which need no order between them (R110). -/
inductive ReleaseStep where
  | answer
  | resume
deriving DecidableEq, Repr

/-- RELEASE HELD as the Fence Unit takes it (R110, R111). -/
def releaseHeld (i n t : Nat) (q : Req) (s : State) : State :=
  match s.heldEntry i n t with
  | some h =>
    s |> dropHeld i
      |> forEachFree [ReleaseStep.answer, ReleaseStep.resume] (fun x s =>
          match x with
          | .answer => reply q .ok s
          | .resume => resume h.args { h.req with passed := true } s)
  | none => reply q .notHeld s

/-- RELEASE_HELD (R110). -/
def execReleaseHeld (p : PortId) (f : Frame) (s : State) : Result :=
  .next (ingress p 51 f (legalHeld f) (releaseHeld (argAOf f) (offsetOf f) (argBOf f)) s)

/-- REJECT HELD as the Fence Unit takes it (R112). Where both leave on one port, the held request's REJECTED comes
before the authority's OK: no rule orders the two, and the model chooses (assumption 37). -/
def rejectHeld (i n t : Nat) (q : Req) (s : State) : State :=
  match s.heldEntry i n t with
  | some h => s |> dropHeld i |> reply h.req .rejected |> reply q .ok
  | none => reply q .notHeld s

/-- REJECT_HELD (R112). -/
def execRejectHeld (p : PortId) (f : Frame) (s : State) : Result :=
  .next (ingress p 52 f (legalHeld f) (rejectHeld (argAOf f) (offsetOf f) (argBOf f)) s)

/-- A held entry ends with a status (R109, R113). -/
def endHold (st : Status) (i : Nat) (s : State) : State :=
  match s.fences.held.look i with
  | some h => s |> dropHeld i |> reply h.req st
  | none => s

/-- The places whose hold has run out, in ascending number (R109). -/
def State.expiredHolds (s : State) : List Nat :=
  (s.fences.held.filter (fun x => decide (x.2.remaining = 0))).map (·.1)

/-- The Fence Unit's ageing at a 1 Hz tap (R109). -/
def ageHolds (s : State) : State :=
  let s := setHeld (s.fences.held.mapVals (fun h => { h with remaining := h.remaining - 1 })) s
  forEach s.expiredHolds (endHold .fenceTimeout) s

/-- HOLD_TIMEOUT (R109; assumption 3): the entry's remaining hold is 0. -/
def execHoldTimeout (i : Fin 16) (s : State) : Result :=
  .next (onlyIf ((s.fences.held.look i).any (fun h => decide (h.remaining = 0))) (endHold .fenceTimeout i) s)

end Sys2Proof.Machine
end

