-- ==== Sys2Proof/Machine/MapLoader.lean ====
section
/-! DEFINITION. The Map Loader: OPEN_LOAD, STAGE_EXTENT, UNSTAGE_EXTENT, READ_STAGED, COMMIT_LOAD, DISCARD_LOAD, OPEN_TIMEOUT, DRAIN_LIMIT_EXPIRY, CHECK_COMPLETION, SWAP (R120 to R136), and READ_EXTENT (R17, R48). -/

namespace Sys2Proof.Machine

/-! ### Requests -/

/-- A loader request taken in OPEN alone (R121): LOADER_BUSY in CHECKING, LOADER_STATE in IDLE and DRAINING. -/
def inOpen (take : Req → State → State) (q : Req) (s : State) : State :=
  match s.loader.state with
  | .opened => take q s
  | .checking => reply q .loaderBusy s
  | .idle | .draining => reply q .loaderState s

/-- Set the open timer back to 30 s (R123 to R125). -/
def restartOpenTimer (s : State) : State :=
  setLoader { s.loader with openTimer := some Config.openTimeout } s

/-- OPEN LOAD as the loader takes it (R121, R122). -/
def openLoad (q : Req) (s : State) : State :=
  match s.loader.state with
  | .idle =>
    s |> setLoader { s.loader with
          state := .opened, staging := s.map.records, openTimer := some Config.openTimeout }
      |> reply q .ok
  | .checking => reply q .loaderBusy s
  | .opened | .draining => reply q .loaderState s

/-- OPEN_LOAD (R122). -/
def execOpenLoad (p : PortId) (f : Frame) (s : State) : Result :=
  .next (ingress p 35 f (legalPlain f) openLoad s)

/-- STAGE EXTENT in OPEN (R123). -/
def stageExtent (e : Nat) (r : ExtentRec) (q : Req) (s : State) : State :=
  s |> setLoader { s.loader with staging := s.loader.staging.put e r } |> restartOpenTimer |> reply q .ok

/-- STAGE_EXTENT (R123). -/
def execStageExtent (p : PortId) (f : Frame) (s : State) : Result :=
  .next (ingress p 36 f (legalStage f) (inOpen (stageExtent (extentOf f) (stagedRecordOf f))) s)

/-- UNSTAGE EXTENT in OPEN (R124). -/
def unstageExtent (e : Nat) (q : Req) (s : State) : State :=
  if (s.loader.staging.look e).isSome then
    s |> setLoader { s.loader with staging := s.loader.staging.drop e } |> restartOpenTimer |> reply q .ok
  else s |> restartOpenTimer |> reply q .noExtent

/-- UNSTAGE_EXTENT (R124). -/
def execUnstageExtent (p : PortId) (f : Frame) (s : State) : Result :=
  .next (ingress p 37 f (legalByExtent f) (inOpen (unstageExtent (extentOf f))) s)

/-- Comparison of a staged record with the effective map: SAME 0, CHANGED 1, ADDED 2 (R125, R154). -/
def State.comparison (s : State) (e : Nat) (r : ExtentRec) : Nat :=
  match s.extent e with
  | some x => if x = r then 0 else 1
  | none => 2

/-- The staged record item (R125, R156). -/
def stagedItem (s : State) (e : Nat) (r : ExtentRec) : Item :=
  .stagedRecord e r.bay r.base r.k r.settings r.ceiling r.policy.code (s.comparison e r)

/-- READ STAGED in OPEN (R125). -/
def readStaged (e : Nat) (q : Req) (s : State) : State :=
  match s.loader.staging.look e with
  | some r => s |> restartOpenTimer |> replyWith q .ok (fun o => { o with body := [stagedItem s e r] })
  | none => s |> restartOpenTimer |> reply q .noExtent

/-- READ_STAGED (R125). -/
def execReadStaged (p : PortId) (f : Frame) (s : State) : Result :=
  .next (ingress p 38 f (legalByExtent f) (inOpen (readStaged (extentOf f))) s)

/-- COMMIT LOAD in OPEN (R127): no reply until the commit ends. -/
def commitLoad (mode : CommitMode) (limit : Nat) (act : OnLimit) (q : Req) (s : State) : State :=
  setLoader { s.loader with
    state := .checking, openTimer := none, mode := some mode, drainLimit := some limit,
    onLimit := some act, commitOwed := some q } s

/-- COMMIT_LOAD (R127). -/
def execCommitLoad (p : PortId) (f : Frame) (s : State) : Result :=
  .next (ingress p 39 f (legalCommit f)
    (inOpen (commitLoad (commitMode f) (argBOf f) (commitOnLimit f))) s)

/-- The load is given up (R126, R134, R136): the drain marks of the affected extents are cleared, the loader
is IDLE and holds nothing; an owed COMMIT LOAD is answered. The reply carries the state IDLE (R121): for ABORTED, R136
does not order the answer and the change of state, and the model chooses (assumption 39). -/
def giveUpLoad (st : Status) (s : State) : State :=
  s |> forEach s.loader.affected clearDrainMark
    |> setLoader Loader.reset
    |> replyOwed s.loader.commitOwed st

/-- DISCARD LOAD as the loader takes it (R121, R136): ABORTED to an owed COMMIT LOAD, then OK. -/
def discardLoad (q : Req) (s : State) : State :=
  match s.loader.state with
  | .idle => reply q .loaderState s
  | .opened | .checking | .draining => s |> giveUpLoad .aborted |> reply q .ok

/-- DISCARD_LOAD (R136). -/
def execDiscardLoad (p : PortId) (f : Frame) (s : State) : Result :=
  .next (ingress p 40 f (legalPlain f) discardLoad s)

/-! ### The check -/

/-- Check reasons (R128), by their values (R154). -/
inductive CheckReason where
  | bay | size | alignment | end_ | ceiling | overlap
deriving DecidableEq, Repr

/-- The value of a check reason (R154). -/
def CheckReason.code : CheckReason → Nat
  | .bay => 1 | .size => 2 | .alignment => 3 | .end_ => 4 | .ceiling => 5 | .overlap => 6

/-- Two records overlap: the same bay and a common block (R2). -/
def ExtentRec.overlaps (a b : ExtentRec) : Bool :=
  decide (a.bay = b.bay) && decide (a.base < b.base + b.size) && decide (b.base < a.base + a.size)

/-- The numbers of the earlier records that a record overlaps (R128). -/
def overlapped (earlier : Tab ExtentRec) (r : ExtentRec) : List Nat :=
  (earlier.filter (fun x => x.2.overlaps r)).map (·.1)

/-- The first test a record fails (R128), in the order of the table. -/
def checkRecord (earlier : Tab ExtentRec) (r : ExtentRec) : Option CheckReason :=
  if 23 < r.bay then some .bay
  else if Config.maxExponent < r.k then some .size
  else if r.base % 2 ^ r.k ≠ 0 then some .alignment
  else if Config.blockSpace < r.base + 2 ^ r.k then some .end_
  else if 3 < r.ceiling then some .ceiling
  else if !(overlapped earlier r).isEmpty then some .overlap
  else none

/-- The failing record of a check: its number, the reason, and for OVERLAP the lower numbers it overlaps. -/
structure CheckFault where
  extent : Nat
  reason : CheckReason
  lower : List Nat
deriving DecidableEq, Repr

/-- The walk of the staging map in ascending extent number (R128). -/
def checkWalk (earlier : Tab ExtentRec) : Tab ExtentRec → Option CheckFault
  | [] => none
  | (e, r) :: rest =>
    match checkRecord earlier r with
    | some .overlap => some ⟨e, .overlap, overlapped earlier r⟩
    | some why => some ⟨e, why, []⟩
    | none => checkWalk (earlier ++ [(e, r)]) rest

/-- The affected set (R130): changed, removed or added numbers, in ascending order. -/
def affectedSet (eff staging : Tab ExtentRec) : List Nat :=
  let keys := (eff.map (·.1) ++ staging.map (·.1)).foldl (fun (t : Tab Unit) e => t.put e ()) []
  (keys.map (·.1)).filter (fun e => decide (eff.look e ≠ staging.look e))

/-- A failed check (R129): back to OPEN, CHECK_FAILED with the record, the reason and the lower extent. Which
of several lower extents an OVERLAP names is an open choice (assumption 17). -/
def failCheck (x : CheckFault) (s : State) : State :=
  let low := (freeOrder s.choices x.lower.length x.lower).headD 0
  let owed := s.loader.commitOwed
  let s := { s with choices := s.choices + x.lower.length }
  let s := setLoader { s.loader with
    state := .opened, mode := none, drainLimit := none, onLimit := none,
    openTimer := some Config.openTimeout, commitOwed := none } s
  match owed with
  | some q => replyWith q .checkFailed (fun o =>
      { o with extent := x.extent, argA := x.reason.code, offset := low }) s
  | none => s

/-- An extent has a loan in any state, a claim entry or an open read (R131). -/
def State.inUse (s : State) (e : Nat) : Bool :=
  !(s.loansOn e).isEmpty || !(s.xl e).queue.isEmpty || decide ((s.xl e).openReads ≠ 0)

/-- The loan is already CLOSING with cause REVOKED (R132). -/
def LoanRec.revokedAlready (r : LoanRec) : Bool :=
  decide (r.state = .closing) && match r.cause with
    | some (.revoked _) => true
    | some .released | some .expired | none => false

/-- The forced revocations on one affected extent (R132): every loan but one already CLOSING with cause
REVOKED, then the queued OPEN READs, which are answered in the model's order (assumption 44). The drain test waits
until all are done. -/
def forceExtent (e : Nat) (s : State) : State :=
  let slots := ((s.loansOn e).filter (fun x => !x.2.revokedAlready)).map (·.1)
  s |> forEachFree slots (revoke ⟨false, true⟩ .map)
    |> cancelQueued ⟨false, true⟩ false .cancelled (s.bayOf e)
        (fun x => decide (x.kind = .openRead) && decide (x.extent = some e))

/-- The forced revocations (R132), affected extents in an open order. -/
def forceRevocations (s : State) : State := forEachFree s.loader.affected forceExtent s

/-- Entering DRAINING (R131): marks, refusals, drain timer, the forced revocations of a FORCED commit, and the
drain test. The entries of one queue are refused MAP_PENDING in the model's order (assumption 41). -/
def enterDraining (affected : List Nat) (s : State) : State :=
  s |> setLoader { s.loader with
        state := .draining, affected := affected, drainTimer := s.loader.drainLimit, escalated := false }
    |> forEach affected setDrainMark
    |> refuseQueues .mapPending affected
    |> onlyIf (decide (s.loader.mode = some .forced)) forceRevocations
    |> drainTest

/-- The check completes (R128 to R131). -/
def completeCheck (s : State) : State :=
  match checkWalk [] s.loader.staging with
  | some x => failCheck x s
  | none =>
    let affected := affectedSet s.map.records s.loader.staging
    if affected.any s.inUse then enterDraining affected s
    else s |> setLoader { s.loader with affected := affected } |> doSwap

/-- CHECK_COMPLETION (R128; assumption 4): outside CHECKING no check is in progress. -/
def execCheckCompletion (s : State) : Result :=
  .next (onlyIf (decide (s.loader.state = .checking)) completeCheck s)

/-- SWAP (R135; assumption 3): the swap of a drained load. -/
def execSwap (s : State) : Result := .next (drainTest s)

/-! ### Timers -/

/-- The open timeout (R126). -/
def openTimeOut (s : State) : State :=
  s |> setLoader Loader.reset |> raise .loader ⟨1, 0, 0⟩

/-- The drain limit expires (R134). -/
def expireDrainLimit (s : State) : State :=
  let s := setLoader { s.loader with drainTimer := none } s
  match s.loader.onLimit with
  | some .force =>
    s |> raise .loader ⟨3, 0, 0⟩
      |> (fun s => setLoader { s.loader with escalated := true } s)
      |> forceRevocations
      |> drainTest
  | some .discard | none => s |> giveUpLoad .drainTimeout |> raise .loader ⟨2, 0, 0⟩

/-- The loader's timer has run out. -/
def State.openExpired (s : State) : Bool :=
  decide (s.loader.state = .opened) && decide (s.loader.openTimer = some 0)

/-- The drain timer has run out. -/
def State.drainExpired (s : State) : Bool :=
  decide (s.loader.state = .draining) && decide (s.loader.drainTimer = some 0)

/-- The Map Loader's ageing at a 1 Hz tap (R53, R126, R134). -/
def ageLoader (s : State) : State :=
  match s.loader.state with
  | .opened =>
    let s := setLoader { s.loader with openTimer := s.loader.openTimer.map (· - 1) } s
    onlyIf s.openExpired openTimeOut s
  | .draining =>
    let s := setLoader { s.loader with drainTimer := s.loader.drainTimer.map (· - 1) } s
    onlyIf s.drainExpired expireDrainLimit s
  | .idle | .checking => s

/-- OPEN_TIMEOUT (R126; assumption 3): the open timer is at 0 in OPEN. -/
def execOpenTimeout (s : State) : Result := .next (onlyIf s.openExpired openTimeOut s)

/-- DRAIN_LIMIT_EXPIRY (R134; assumption 3): the drain timer is at 0 in DRAINING. -/
def execDrainLimitExpiry (s : State) : Result := .next (onlyIf s.drainExpired expireDrainLimit s)

/-! ### READ EXTENT -/

/-- The holder item (R48, R156). -/
def holderItem (x : Nat × LoanRec) : Item :=
  .holder ⟨x.1, x.2.issue⟩ x.2.holder x.2.mode.code x.2.state.code x.2.cls x.2.remaining x.2.outstanding

/-- The queue item (R48, R156). -/
def queueItem (c : ClaimEntry) : Item :=
  .queue c.req.node c.req.tag c.kind.code c.cls c.wait c.req.port.val
    (match c.kind with
      | .upgrade h => some h
      | .shared | .sole => none)

/-- The body of a READ EXTENT reply (R17, R48): record item, loan item, holders, queue. Where both lists do not
fit, the holder list is cut first, then the queue list. -/
def extentBody (s : State) (e : Nat) (r : ExtentRec) : List Item :=
  let loans := s.loansOn e
  let queue := (s.xl e).queue
  let nQueue := min queue.length Config.extentItems
  let nHolder := min loans.length (Config.extentItems - nQueue)
  [extentItem s e r,
    .extentLoan (s.summary e).code loans.length (s.pendingUpgrade e) (markCode (s.xl e).drainMark)
      (s.xl e).openReads queue.length (markCode (decide (e ∈ s.loans.tableWait))) nHolder nQueue]
  ++ (loans.take nHolder).map holderItem ++ (queue.take nQueue).map queueItem

/-- READ EXTENT as it is taken (R17). -/
def readExtent (e : Nat) (q : Req) (s : State) : State :=
  match s.extent e with
  | none => reply q .noExtent s
  | some r => replyWith q .ok (fun o => { withPair s e o with body := extentBody s e r }) s

/-- READ_EXTENT (R17). -/
def execReadExtent (p : PortId) (f : Frame) (s : State) : Result :=
  .next (ingress p 34 f (legalByExtent f) (readExtent (extentOf f)) s)

end Sys2Proof.Machine
end

