-- ==== Sys2Proof/Machine/LeaseClock.lean ====
section
/-! DEFINITION. The Lease Clock: SET_LEASE_CLASS, CLOCK_STOP, CLOCK_RUN, CLOCK_RESET, READ_CLOCK, LEASE_TICK, LEASE_EXPIRY, CLAIM_WAIT_TIMEOUT (R51 to R64, R30). -/

namespace Sys2Proof.Machine

/-! ### Requests -/

/-- SET LEASE CLASS (R56). -/
def setLeaseClass (cls units : Nat) (q : Req) (s : State) : State :=
  s |> setClock { s.clock with units := s.clock.units.setIfInBounds cls units }
    |> replyWith q .ok (fun o => { o with units := units })

/-- SET_LEASE_CLASS (R56). -/
def execSetLeaseClass (p : PortId) (f : Frame) (s : State) : Result :=
  .next (ingress p 59 f (legalLeaseClass f) (setLeaseClass (argAOf f) f.units.toNat) s)

/-- The pending run order is set, replacing any other (R60). -/
def orderRun (o : RunOrder) (q : Req) (s : State) : State :=
  s |> setClock { s.clock with order := some o } |> reply q .ok

/-- CLOCK_STOP (R60). -/
def execClockStop (p : PortId) (f : Frame) (s : State) : Result :=
  .next (ingress p 60 f (legalPlain f) (orderRun .stop) s)

/-- CLOCK_RUN (R60). -/
def execClockRun (p : PortId) (f : Frame) (s : State) : Result :=
  .next (ingress p 61 f (legalPlain f) (orderRun .run) s)

/-- The chain count becomes 0 and no tap fires (R63). -/
def resetChain (q : Req) (s : State) : State :=
  s |> setClock { s.clock with count := 0 } |> reply q .ok

/-- CLOCK_RESET (R63). -/
def execClockReset (p : PortId) (f : Frame) (s : State) : Result :=
  .next (ingress p 62 f (legalPlain f) resetChain s)

/-- READ CLOCK (R64). -/
def readClock (q : Req) (s : State) : State :=
  replyWith q .ok (fun o =>
    { o with body := [.clock s.clock.count.toNat s.clock.run.code (orderCode s.clock.order) (s.units 0)
        (s.units 1) (s.units 2) (s.units 3)] }) s

/-- READ_CLOCK (R64). -/
def execReadClock (p : PortId) (f : Frame) (s : State) : Result :=
  .next (ingress p 63 f (legalPlain f) readClock s)

/-! ### Taps -/

/-- The taps fired at an advance (R52). -/
structure Taps where
  hz4 : Bool
  hz1 : Bool
  quarter : Bool
  sixteenth : Bool
deriving DecidableEq, Repr

/-- A tap of period 2^j fires when the count is brought to a multiple of 2^j (R52). -/
def tapsAt (count : BitVec 14) : Taps :=
  ⟨decide (count.toNat % 256 = 0), decide (count.toNat % 1024 = 0), decide (count.toNat % 4096 = 0),
    decide (count.toNat % 16384 = 0)⟩

/-- The tap of a lease class is in the fired set (R55). -/
def Taps.ofClass (t : Taps) (cls : Nat) : Bool :=
  match cls with
  | 0 => t.hz4
  | 1 => t.hz1
  | 2 => t.quarter
  | _ => t.sixteenth

/-! ### The Loan Engine's ageing -/

/-- The loan ages with its class: HELD or UPGRADING (R57). -/
def LoanRec.ages (r : LoanRec) : Bool := decide (r.state = .held) || decide (r.state = .upgrading)

/-- The loan loses a unit at these taps (R57). -/
def LoanRec.aged (t : Taps) (r : LoanRec) : LoanRec :=
  if r.ages && t.ofClass r.cls then { r with remaining := r.remaining - 1 } else r

/-- Every claim entry loses a second (R30). -/
def ExtentLoans.aged (x : ExtentLoans) : ExtentLoans :=
  { x with queue := x.queue.map (fun c => { c with wait := c.wait - 1 }) }

/-- The units and seconds that the taps take, from loans and entries as they stand at the taps (R30, R57;
assumption 16). -/
def takeUnits (t : Taps) (s : State) : State :=
  { s with loans := { s.loans with
      table := s.loans.table.mapVals (LoanRec.aged t)
      extents := if t.hz1 then s.loans.extents.mapVals ExtentLoans.aged else s.loans.extents } }

/-- The loan's remaining has reached 0 at a tap of its class (R58). -/
def LoanRec.due (t : Taps) (r : LoanRec) : Bool := r.ages && t.ofClass r.cls && decide (r.remaining = 0)

/-- The event kind of a class's expiry (R58). -/
def expiryKind (cls : Nat) : EventKind :=
  match cls with
  | 0 => .expiryC0
  | 1 => .expiryC1
  | 2 => .expiryC2
  | _ => .expiryC3

/-- A loan expires (R58); the queue re-evaluation and table-wait service of its end are left to R59 part 3. Where it
is freed, the tests its end makes, and what they send, come before the EXPIRED notice: no rule orders the two, and
the model chooses (assumption 35). The tests also come before the deferred service and its GRANTED replies: no rule
orders these either, and the model chooses (assumption 40). -/
def expireLoan (slot : Nat) (s : State) : State :=
  let r := s.loan slot
  let h := s.handleOf slot
  s |> onlyIf (decide (r.state = .upgrading)) (endUpgrade .loanEnded slot)
    |> cancelLoan Tests.all h .cancelled
    |> (fun s =>
        if s.loanInFlight (s.bayOf r.extent) h then closeLoan slot .expired s
        else s |> freeLoan slot .expired |> afterEnd Tests.all r.extent)
    |> notify r.holder (expiredNotice r.holder h r.extent)
    |> raise (expiryKind r.cls) ⟨r.holder, r.extent, 0⟩

/-- A claim entry whose wait has run out, already removed from its queue, is refused, with its event (R30). -/
def timeOutEntry (e : Nat) (c : ClaimEntry) (s : State) : State :=
  s |> reply c.req .claimTimeout |> raise .claimTimeout ⟨c.req.node, e, 0⟩

/-- The entries of one extent whose waits ran out at one tap (R30): removed together, then refused in queue order. What
the extent's place on the table-wait list becomes is left to the one re-evaluation that follows (R28, R29). -/
def timeOutEntries (e : Nat) (cs : List ClaimEntry) (s : State) : State :=
  s |> forEach cs (dropEntry e) |> forEach cs (timeOutEntry e)

/-- The slots on an extent whose loans are due, ascending. -/
def State.dueSlots (s : State) (t : Taps) (e : Nat) : List Nat :=
  ((s.loansOn e).filter (fun x => x.2.due t)).map (·.1)

/-- The entries of an extent whose wait is 0, in queue order. -/
def State.dueEntries (s : State) (e : Nat) : List ClaimEntry :=
  (s.xl e).queue.filter (fun c => decide (c.wait = 0))

/-- The ageing on one extent (R59): part 1 the expiries by slot, part 2 the claim timeouts in queue order at a
1 Hz tap, part 3 one re-evaluation if a loan was freed or an entry left, and the table-wait list if a loan was
freed. R59 names a freed loan and an entry of part 2: that the UPGRADE entry of a loan left CLOSING counts too, and that
its re-evaluation falls here, is the model's reading (assumptions 15 and 42). -/
def ageExtent (t : Taps) (e : Nat) (s : State) : State :=
  let slots := s.dueSlots t e
  let left := slots.any (fun n => decide ((s.loan n).state = .upgrading))
  let s1 := forEach slots expireLoan s
  let freed := slots.any (fun n => decide ((s1.loan n).state = .free))
  let due := if t.hz1 then s1.dueEntries e else []
  timeOutEntries e due s1
    |> onlyIf (freed || left || !due.isEmpty) (reevaluate e)
    |> onlyIf freed serveTableWait

/-- The extents with a due loan or a due entry, in ascending number (R59). -/
def State.dueExtents (s : State) (t : Taps) : List Nat :=
  let byLoan := (s.loans.table.filter (fun x => x.2.due t)).map (·.2.extent)
  let byEntry := if t.hz1 then
      (s.loans.extents.filter (fun x => x.2.queue.any (fun c => decide (c.wait = 0)))).map (·.1)
    else []
  (((byLoan ++ byEntry).foldl (fun (u : Tab Unit) e => u.put e ()) []).map (·.1))

/-- The Loan Engine's ageing event (R57 to R59). -/
def ageLoans (t : Taps) (s : State) : State :=
  let s := takeUnits t s
  forEach (s.dueExtents t) (ageExtent t) s

/-! ### The tick -/

/-- A block that takes the fired taps as an ageing event of its own (R53). -/
inductive AgeingBlock where
  | loans | holds | loader
deriving DecidableEq, Repr

/-- The blocks with something to age at these taps: the others would change nothing (R53). -/
def State.ageingBlocks (s : State) (t : Taps) : List AgeingBlock :=
  (if s.loans.table.any (fun x => x.2.ages && t.ofClass x.2.cls)
      || (t.hz1 && s.loans.extents.any (fun x => !x.2.queue.isEmpty)) then [.loans] else [])
  ++ (if t.hz1 && !s.fences.held.isEmpty then [.holds] else [])
  ++ (if t.hz1 && (s.loader.openTimer.isSome || s.loader.drainTimer.isSome) then [.loader] else [])

/-- One block's ageing event. -/
def ageBlock (t : Taps) (x : AgeingBlock) (s : State) : State :=
  match x with
  | .loans => ageLoans t s
  | .holds => ageHolds s
  | .loader => ageLoader s

/-- The run state after the pending order is applied (R61). -/
def Clock.runAfter (c : Clock) : RunState :=
  match c.order with
  | some .stop => .stopped
  | some .run => .running
  | none => c.run

/-- LEASE_TICK (R51, R61): the pending order is applied and set back to absent, then the count advances or
holds; an advance hands the fired taps to the blocks, in an open order (R53). -/
def execLeaseTick (s : State) : Result :=
  let c := s.clock
  .next (match c.runAfter with
    | .stopped => setClock { c with run := .stopped, order := none } s
    | .running =>
      let s := setClock { c with run := .running, order := none, count := c.count + 1 } s
      let t := tapsAt (c.count + 1)
      forEachFree (s.ageingBlocks t) (ageBlock t) s)

/-- LEASE_EXPIRY (R58; assumption 3): a live loan whose remaining is 0 expires, and its extent's queue and the
table-wait list are served as R59 part 3 states. A queue that lost the UPGRADE entry of a loan left CLOSING is also
re-evaluated, behind the EXPIRED notice and the event (assumptions 15 and 42). -/
def execLeaseExpiry (slot : Fin 8192) (s : State) : Result :=
  let r := s.loan slot
  .next (onlyIf (r.ages && decide (r.remaining = 0)) (fun s =>
    let s1 := expireLoan slot s
    s1 |> onlyIf (decide ((s1.loan slot).state = .free) || decide (r.state = .upgrading)) (reevaluate r.extent)
      |> onlyIf (decide ((s1.loan slot).state = .free)) serveTableWait) s)

/-- CLAIM_WAIT_TIMEOUT (R30; assumption 3): the entries of an extent whose remaining wait is 0 are removed
together, refused in queue order, and the queue is re-evaluated once. -/
def execClaimWaitTimeout (e : Fin 4096) (s : State) : Result :=
  .next (onlyIf (!(s.dueEntries e).isEmpty)
    (fun s => s |> timeOutEntries e (s.dueEntries e) |> reevaluate e) s)

end Sys2Proof.Machine
end

