-- ==== Sys2Proof/Machine/Resets.lean ====
section
/-! DEFINITION. LENDING_RESET and FULL_RESET (R50, R89, R101, R113, R137, R149, R171, R172). -/

namespace Sys2Proof.Machine

/-- An owed reply is sent RESET (R137, R89). -/
def resetOwed (owed : Option Req) (s : State) : State :=
  match owed with
  | some q => replyReset q s
  | none => s

/-- The Map Loader's part (R137): an owed COMMIT LOAD is answered RESET; all else is kept. -/
def resetLoader (s : State) : State :=
  s |> setLoader { s.loader with commitOwed := none } |> resetOwed s.loader.commitOwed

/-- The Fence Unit's part (R113): every held entry is answered RESET, in ascending entry number. -/
def resetHeld (s : State) : State :=
  forEach s.fences.held (fun x s => s |> dropHeld x.1 |> replyReset x.2.req) s

/-- Every claim entry of an extent is refused RESET (R50 step 1). R50 gives the entries of one queue no order, and the
model takes queue order (assumption 41). -/
def resetQueue (e : Nat) (s : State) : State :=
  forEach (s.xl e).queue (fun c s => s |> dropEntry e c |> replyReset c.req) s

/-- R50 step 1: every claim entry is refused RESET, extents in an open order and the entries of one queue in the order
of assumption 41; the table-wait list is empty. -/
def resetClaims (s : State) : State :=
  s |> forEachFree (s.queuesOn (s.loans.extents.map (·.1))) resetQueue |> setTableWait []

/-- R50 step 2, R89 step 1: every queued transfer is answered RESET, bays in an open order. The entry test
waits for the owed service replies (assumption 13). -/
def resetQueued (s : State) : State :=
  forEachFree (allBays.filter (fun b => !(s.bay b).queue.isEmpty))
    (fun b => cancelWith replyReset ⟨true, false⟩ false .reset b (fun _ => true)) s

/-- R50 step 3: a release reply owed is sent RESET and removed. -/
def resetRelease (slot : Nat) (s : State) : State :=
  s |> updLoan slot (fun r => { r with releaseOwed := none }) |> resetOwed (s.loan slot).releaseOwed

/-- R50 step 3 on every record, in an open order. -/
def resetReleases (s : State) : State :=
  forEachFree ((s.loans.table.filter (fun x => x.2.releaseOwed.isSome)).map (·.1)) resetRelease s

/-- R89 step 3: a service reply owed is sent RESET and cleared. -/
def resetService (b : Nat) (s : State) : State :=
  s |> updBay b (fun y => { y with serviceOwed := none }) |> resetOwed (s.bay b).serviceOwed

/-- R89 step 3 on every bay, in an open order. -/
def resetServices (s : State) : State :=
  forEachFree (allBays.filter (fun b => (s.bay b).serviceOwed.isSome)) resetService s

/-- A loan with a transfer in flight is detached (R50 step 4): CLOSING with cause REVOKED, reason RESET, and
holder 0. -/
def detach (h : Handle) (s : State) : State :=
  onlyIf (s.live h)
    (updLoan h.slot (fun r => { r with state := .closing, cause := some (.revoked .reset), holder := 0 })) s

/-- R50 step 4, R89 step 2 on a bay: the transfer in flight is answered RESET unless it was already, it stays
in flight with its reply-sent mark set, and its loan is detached. -/
def resetInFlight (b : Nat) (s : State) : State :=
  match (s.bay b).inFlight with
  | some fl =>
    s |> onlyIf (!fl.replySent) (replyReset fl.transfer.req)
      |> updBay b (fun y => { y with inFlight := some { fl with replySent := true } })
      |> (fun s => match fl.transfer.handle with
          | some h => detach h s
          | none => s)
  | none => s

/-- R50 step 4 on every bay, in an open order. -/
def resetInFlights (s : State) : State :=
  forEachFree (allBays.filter (fun b => (s.bay b).inFlight.isSome)) resetInFlight s

/-- The bays in SERVICE_PENDING make the entry test, their open reads having been cancelled (R82, R89). -/
def resetEntryTests (s : State) : State :=
  forEachFree (allBays.filter (fun b => decide ((s.bay b).state = .servicePending))) entryTest s

/-- What R50 step 5 does in an open order: each loan end, and the emptying of the Watch List, which falls
before, between or after the generation changes of the loan ends (R101; assumption 14). -/
inductive ResetItem where
  | loan (slot : Nat)
  | watches
deriving DecidableEq, Repr

/-- The loans with no transfer in flight, and the Watch List if it holds a record. -/
def State.resetItems (s : State) : List ResetItem :=
  (s.loans.table.filter (fun x => decide (x.2.state ≠ .free)
      && !s.loanInFlight (s.bayOf x.2.extent) ⟨x.1, x.2.issue⟩)).map (fun x => .loan x.1)
  ++ (if s.watches.isEmpty then [] else [.watches])

/-- One of them. -/
def resetItem (x : ResetItem) (s : State) : State :=
  match x with
  | .loan slot => endLoan Tests.all slot (.revoked .reset) s
  | .watches => setWatches [] s

/-- R50 step 5 and R101. -/
def resetLoans (s : State) : State := forEachFree s.resetItems resetItem s

/-- The roster's counts return to 0 (R50, R149). -/
def resetCounts (s : State) : State :=
  setRoster (s.roster.mapVals (fun r => { r with held := 0, waiting := 0 })) s

/-- The Loan Engine and the bays, their steps as R50 and R89 number them, with the Watch List (R101). A swap that
a cancelled OPEN READ's drain test makes (R137) comes before the Watch List is emptied, so that its CHANGE notices are
made: no rule orders the two, and the model chooses (assumption 36). -/
def resetLending (s : State) : State :=
  s |> resetClaims
    |> resetQueued
    |> resetReleases
    |> resetInFlights
    |> resetServices
    |> resetEntryTests
    |> resetLoans
    |> resetCounts

/-- The Held List and the lending blocks answer their requests with no order between them (assumption 13). -/
inductive ResetPart where
  | held | lending
deriving DecidableEq, Repr

/-- One of them. -/
def resetPart (x : ResetPart) (s : State) : State :=
  match x with
  | .held => resetHeld s
  | .lending => resetLending s

/-- LENDING RESET as it is taken (R171). The owed COMMIT LOAD is answered first, so that a swap the reset brings
about makes no reply (R137); the reply OK comes last. -/
def lendingReset (q : Req) (s : State) : State :=
  s |> resetLoader
    |> forEachFree (if s.fences.held.isEmpty then [ResetPart.lending] else [.held, .lending]) resetPart
    |> reply q .ok

/-- LENDING_RESET (R171). -/
def execLendingReset (p : PortId) (f : Frame) (s : State) : Result :=
  .next (ingress p 68 f (legalPlain f) lendingReset s)

/-- FULL_RESET (R172): every block takes its full-reset contents. The commands still waiting outside and the
count of open choices are the model's own and stay (assumption 21). -/
def execFullReset (s : State) : Result :=
  .next { State.reset with choices := s.choices, pending := s.pending }

end Sys2Proof.Machine
end

