-- ==== Sys2Proof/Machine/Roster.lean ====
section
/-! DEFINITION. The Node Roster's requests: ENROLL_NODE, SET_NODE, BAR_NODE, UNBAR_NODE, REMOVE_NODE, READ_NODE (R143 to R148). -/

namespace Sys2Proof.Machine

/-- ENROLL NODE as the Roster takes it (R143). -/
def enrollNode (n quota : Nat) (write : Bool) (ceiling : Nat) (q : Req) (s : State) : State :=
  if (s.node n).isSome then reply q .duplicate s
  else if Config.rosterSize ≤ s.roster.length then reply q .rosterFull s
  else s |> setNode n ⟨.render, .enrolled, none, quota, write, ceiling, 0, 0, 0⟩ |> reply q .ok

/-- ENROLL_NODE (R143). -/
def execEnrollNode (p : PortId) (f : Frame) (s : State) : Result :=
  .next (ingress p 53 f (legalEnroll f)
    (enrollNode (offsetOf f) (settingQuota f) (settingWrite f) (settingCeiling f)) s)

/-- A record with new settings (R144). -/
def NodeRec.withSettings (r : NodeRec) (quota : Nat) (write : Bool) (ceiling : Nat) : NodeRec :=
  { r with quota := quota, write := write, ceiling := ceiling }

/-- New settings for a record (R144): QUOTA where the quota is below held plus waiting. -/
def applySettings (n : Nat) (r : NodeRec) (quota : Nat) (write : Bool) (ceiling : Nat) (q : Req) (s : State) :
    State :=
  if quota < r.held + r.waiting then reply q .quota s
  else s |> setNode n (r.withSettings quota write ceiling) |> reply q .ok

/-- The node has a claim entry of any kind. -/
def State.hasEntry (s : State) (n : Nat) : Bool :=
  s.loans.extents.any (fun x => x.2.queue.any (fun c => decide (c.req.node = n)))

/-- The records of a node leave the Watch List, without notice (R99). -/
def dropWatchesOf (n : Nat) (s : State) : State :=
  setWatches (s.watches.filter (fun x => decide (x.2.node ≠ n))) s

/-- The AUTHORITY role leaves every other record (R145): the one that held it becomes RENDER. -/
def withoutAuthority (t : Tab NodeRec) : Tab NodeRec := t.mapVals (fun r => { r with role := .render })

/-- The move of the AUTHORITY role to a record (R145), in one step; the new authority's watches go (R99), and the
notice test is made (R167). -/
def moveRole (n : Nat) (r : NodeRec) (quota : Nat) (write : Bool) (ceiling : Nat) (q : Req) (s : State) :
    State :=
  s |> setRoster ((withoutAuthority s.roster).put n { r.withSettings quota write ceiling with role := .authority })
    |> dropWatchesOf n
    |> noticeTest
    |> reply q .ok

/-- SET NODE as the Roster takes it (R144, R145). -/
def takeSetNode (n quota : Nat) (write : Bool) (ceiling : Nat) (takesRole : Bool) (q : Req) (s : State) :
    State :=
  match s.node n with
  | none => reply q .unknownNode s
  | some r =>
    if !takesRole || decide (r.role = .authority) then applySettings n r quota write ceiling q s
    else if r.state = .barred then reply q .notPermitted s
    else if 0 < r.held || s.hasEntry n || decide (r.tags ≠ 0) then reply q .busy s
    else moveRole n r quota write ceiling q s

/-- SET_NODE (R144). -/
def execSetNode (p : PortId) (f : Frame) (s : State) : Result :=
  .next (ingress p 54 f (legalSetting f)
    (takeSetNode (offsetOf f) (settingQuota f) (settingWrite f) (settingCeiling f) (settingTakesRole f)) s)

/-! ### BAR NODE -/

/-- The extents on whose queues a node has an entry. -/
def State.queuesOf (s : State) (n : Nat) : List Nat :=
  (s.loans.extents.filter (fun x => x.2.queue.any (fun c => decide (c.req.node = n)))).map (·.1)

/-- The claim entries of a node on one extent are refused BARRED (R31). -/
def barEntries (n e : Nat) (s : State) : State :=
  forEach ((s.xl e).queue.filter (fun c => decide (c.req.node = n))) (refuseEntry .barred e) s

/-- The claims and then the loans of a barred node (R31, R146): all its entries are refused, each queue that
lost one is re-evaluated, and then its loans are revoked. No rule orders the re-evaluations and the revocations, and
the model chooses (assumption 45). -/
def barLoans (n : Nat) (s : State) : State :=
  s |> forEachFree (s.queuesOf n) (barEntries n)
    |> forEachFree (s.queuesOf n) reevaluate
    |> (fun s => forEachFree ((s.loansOf n).map (·.1)) (revoke Tests.all .barred) s)

/-- The held requests of a barred node, in ascending entry number (R113). -/
def barHeld (n : Nat) (s : State) : State :=
  forEach ((s.fences.held.filter (fun x => decide (x.2.req.node = n))).map (·.1)) (endHold .barred) s

/-- An OPEN READ of a node. -/
def isOpenReadOf (n : Nat) (x : Transfer) : Bool := decide (x.kind = .openRead) && decide (x.req.node = n)

/-- The queued OPEN READs of a barred node (R69, R146), bays in an open order and those of one bay in the order of
assumption 44. -/
def barOpenReads (n : Nat) (s : State) : State :=
  forEachFree (allBays.filter (fun b => (s.bay b).queue.any (isOpenReadOf n)))
    (fun b => cancelQueued Tests.all false .cancelled b (isOpenReadOf n)) s

/-- The kinds of a barred node's holdings (R146), which need no order among them but that claims come before
loans. -/
inductive Holding where
  | held | loans | openReads | watches
deriving DecidableEq, Repr

/-- The kinds of holding that a node has. -/
def State.holdings (s : State) (n : Nat) : List Holding :=
  (if s.fences.held.any (fun x => decide (x.2.req.node = n)) then [.held] else [])
  ++ (if s.hasEntry n || !(s.loansOf n).isEmpty then [.loans] else [])
  ++ (if allBays.any (fun b => (s.bay b).queue.any (isOpenReadOf n)) then [.openReads] else [])
  ++ (if s.watches.any (fun x => decide (x.2.node = n)) then [.watches] else [])

/-- One kind of holding is unwound. -/
def unwind (n : Nat) (x : Holding) (s : State) : State :=
  match x with
  | .held => barHeld n s
  | .loans => barLoans n s
  | .openReads => barOpenReads n s
  | .watches => dropWatchesOf n s

/-- BAR NODE as the Roster takes it (R146). -/
def barNode (n : Nat) (q : Req) (s : State) : State :=
  match s.node n with
  | none => reply q .unknownNode s
  | some r =>
    if r.role = .authority then reply q .notPermitted s
    else if r.state = .barred then reply q .ok s
    else
      s |> setNode n { r with state := .barred }
        |> forEachFree (s.holdings n) (unwind n)
        |> reply q .ok

/-- BAR_NODE (R146). -/
def execBarNode (p : PortId) (f : Frame) (s : State) : Result :=
  .next (ingress p 55 f (legalByNode f) (barNode (offsetOf f)) s)

/-! ### UNBAR, REMOVE, READ -/

/-- UNBAR NODE as the Roster takes it (R148). -/
def unbarNode (n : Nat) (q : Req) (s : State) : State :=
  match s.node n with
  | none => reply q .unknownNode s
  | some r =>
    if r.state = .barred then
      s |> setNode n { r with state := if r.learned.isSome then .present else .enrolled } |> reply q .ok
    else reply q .ok s

/-- UNBAR_NODE (R148). -/
def execUnbarNode (p : PortId) (f : Frame) (s : State) : Result :=
  .next (ingress p 56 f (legalByNode f) (unbarNode (offsetOf f)) s)

/-- REMOVE NODE as the Roster takes it (R147). -/
def removeNode (n : Nat) (q : Req) (s : State) : State :=
  match s.node n with
  | none => reply q .unknownNode s
  | some r =>
    if r.role = .authority then reply q .notPermitted s
    else if 0 < r.held || s.hasEntry n || s.watches.any (fun x => decide (x.2.node = n))
        || decide (r.tags ≠ 0) then reply q .busy s
    else s |> setRoster (s.roster.drop n) |> reply q .ok

/-- REMOVE_NODE (R147). -/
def execRemoveNode (p : PortId) (f : Frame) (s : State) : Result :=
  .next (ingress p 57 f (legalByNode f) (removeNode (offsetOf f)) s)

/-- READ NODE (R148): every field of the record. -/
def readNode (n : Nat) (q : Req) (s : State) : State :=
  match s.node n with
  | none => reply q .unknownNode s
  | some r =>
    replyWith q .ok (fun o =>
      { o with body := [.node n r.role.code r.state.code r.learned r.quota (markCode r.write) r.ceiling r.held
          r.waiting r.tags] }) s

/-- READ_NODE (R148). -/
def execReadNode (p : PortId) (f : Frame) (s : State) : Result :=
  .next (ingress p 58 f (legalByNode f) (readNode (offsetOf f)) s)

end Sys2Proof.Machine
end

