-- ==== Sys2Proof/Machine/Watches.lean ====
section
/-! DEFINITION. The Watch List's requests: WATCH, UNWATCH, READ_WATCHES (R91 to R94, R100). -/

namespace Sys2Proof.Machine

/-- The record latches the extent's generation and is ARMED (R91). -/
def latch (e n : Nat) (st : WatchState) (s : State) : State :=
  setWatches (s.watches.put (watchKey e n) ⟨n, e, (s.pair e).gen, st⟩) s

/-- The OK reply of a WATCH: generation and TORN mark as one pair (R91, R93). -/
def replyWatch (e : Nat) (q : Req) (s : State) : State := replyWith q .ok (withPair s e) s

/-- A reused or new record takes the watch (R91, R93): `expect` is the expected generation of an EXPECT
watch. A stale one is FIRED at once, and a STALE notice follows the reply. -/
def setWatch (e : Nat) (expect : Option (BitVec 32)) (q : Req) (s : State) : State :=
  match expect with
  | none => s |> latch e q.node .armed |> replyWatch e q
  | some g =>
    if g = (s.pair e).gen then s |> latch e q.node .armed |> replyWatch e q
    else
      s |> latch e q.node .fired
        |> replyWatch e q
        |> notify q.node (changeNotice q.node e (s.pair e) .stale)

/-- WATCH as the Watch List takes it (R91, R92). -/
def takeWatch (e : Nat) (expect : Option (BitVec 32)) (q : Req) (s : State) : State :=
  if (s.extent e).isNone then reply q .noExtent s
  else if (s.watches.look (watchKey e q.node)).isSome then setWatch e expect q s
  else if Config.watchSize ≤ s.watches.length then
    s |> reply q .watchFull |> raise .watchFull ⟨q.node, e, 0⟩
  else setWatch e expect q s

/-- The expected generation of a WATCH frame: arg A 1 is EXPECT (R91, R154). -/
def watchExpect (f : Frame) : Option (BitVec 32) := if argAOf f = 1 then some f.generation else none

/-- WATCH (R91). -/
def execWatch (p : PortId) (f : Frame) (s : State) : Result :=
  .next (ingress p 8 f (legalWatch f) (unlessBarred (takeWatch (extentOf f) (watchExpect f))) s)

/-- UNWATCH as the Watch List takes it (R94). -/
def takeUnwatch (e : Nat) (q : Req) (s : State) : State :=
  if (s.watches.look (watchKey e q.node)).isSome then
    s |> setWatches (s.watches.drop (watchKey e q.node)) |> reply q .ok
  else reply q .notWatched s

/-- UNWATCH (R94). -/
def execUnwatch (p : PortId) (f : Frame) (s : State) : Result :=
  .next (ingress p 9 f (legalByExtent f) (unlessBarred (takeUnwatch (extentOf f))) s)

/-- READ WATCHES (R100): the records on an extent, in ascending node id, with its generation and TORN mark. -/
def readWatches (e : Nat) (q : Req) (s : State) : State :=
  replyWith q .ok (fun o =>
    { withPair s e o with
      body := (s.watches.filter (fun x => decide (x.2.extent = e))).map (fun x =>
        .watch x.2.node x.2.latched x.2.state.code) }) s

/-- READ_WATCHES (R100). -/
def execReadWatches (p : PortId) (f : Frame) (s : State) : Result :=
  .next (ingress p 46 f (legalByExtent f) (readWatches (extentOf f)) s)

end Sys2Proof.Machine
end

