-- ==== Sys2Proof/Machine/Dispatch.lean ====
section
/-! DEFINITION. Dispatch: one arm for each command, each a call of its meaning. -/

namespace Sys2Proof.Machine

/-- The effect of a command on everything but the queue. -/
def exec (i : Instr) (s : State) : Host.Outcome State Fault Refusal :=
  match i with
  | .claim p f => Sys2Proof.Machine.execClaim p f s
  | .renew p f => Sys2Proof.Machine.execRenew p f s
  | .downgrade p f => Sys2Proof.Machine.execDowngrade p f s
  | .release p f => Sys2Proof.Machine.execRelease p f s
  | .read p f => Sys2Proof.Machine.execRead p f s
  | .write p f => Sys2Proof.Machine.execWrite p f s
  | .openRead p f => Sys2Proof.Machine.execOpenRead p f s
  | .watch p f => Sys2Proof.Machine.execWatch p f s
  | .unwatch p f => Sys2Proof.Machine.execUnwatch p f s
  | .nodeStatus p f => Sys2Proof.Machine.execNodeStatus p f s
  | .revokeLoan p f => Sys2Proof.Machine.execRevokeLoan p f s
  | .readLoan p f => Sys2Proof.Machine.execReadLoan p f s
  | .readExtent p f => Sys2Proof.Machine.execReadExtent p f s
  | .openLoad p f => Sys2Proof.Machine.execOpenLoad p f s
  | .stageExtent p f => Sys2Proof.Machine.execStageExtent p f s
  | .unstageExtent p f => Sys2Proof.Machine.execUnstageExtent p f s
  | .readStaged p f => Sys2Proof.Machine.execReadStaged p f s
  | .commitLoad p f => Sys2Proof.Machine.execCommitLoad p f s
  | .discardLoad p f => Sys2Proof.Machine.execDiscardLoad p f s
  | .serviceBay p f => Sys2Proof.Machine.execServiceBay p f s
  | .serviceRead p f => Sys2Proof.Machine.execServiceRead p f s
  | .serviceWrite p f => Sys2Proof.Machine.execServiceWrite p f s
  | .returnBay p f => Sys2Proof.Machine.execReturnBay p f s
  | .readBay p f => Sys2Proof.Machine.execReadBay p f s
  | .readWatches p f => Sys2Proof.Machine.execReadWatches p f s
  | .setFence p f => Sys2Proof.Machine.execSetFence p f s
  | .clearFenceHits p f => Sys2Proof.Machine.execClearFenceHits p f s
  | .readFences p f => Sys2Proof.Machine.execReadFences p f s
  | .listHeld p f => Sys2Proof.Machine.execListHeld p f s
  | .releaseHeld p f => Sys2Proof.Machine.execReleaseHeld p f s
  | .rejectHeld p f => Sys2Proof.Machine.execRejectHeld p f s
  | .enrollNode p f => Sys2Proof.Machine.execEnrollNode p f s
  | .setNode p f => Sys2Proof.Machine.execSetNode p f s
  | .barNode p f => Sys2Proof.Machine.execBarNode p f s
  | .unbarNode p f => Sys2Proof.Machine.execUnbarNode p f s
  | .removeNode p f => Sys2Proof.Machine.execRemoveNode p f s
  | .readNode p f => Sys2Proof.Machine.execReadNode p f s
  | .setLeaseClass p f => Sys2Proof.Machine.execSetLeaseClass p f s
  | .clockStop p f => Sys2Proof.Machine.execClockStop p f s
  | .clockRun p f => Sys2Proof.Machine.execClockRun p f s
  | .clockReset p f => Sys2Proof.Machine.execClockReset p f s
  | .readClock p f => Sys2Proof.Machine.execReadClock p f s
  | .setEventLevels p f => Sys2Proof.Machine.execSetEventLevels p f s
  | .setMaskLevel p f => Sys2Proof.Machine.execSetMaskLevel p f s
  | .clearEvents p f => Sys2Proof.Machine.execClearEvents p f s
  | .readEvents p f => Sys2Proof.Machine.execReadEvents p f s
  | .lendingReset p f => Sys2Proof.Machine.execLendingReset p f s
  | .portLinkDown p => Sys2Proof.Machine.execPortLinkDown p s
  | .portLinkUp p => Sys2Proof.Machine.execPortLinkUp p s
  | .frameLeaves p => Sys2Proof.Machine.execFrameLeaves p s
  | .bayLinkDown b => Sys2Proof.Machine.execBayLinkDown b s
  | .bayLinkUp b capacity => Sys2Proof.Machine.execBayLinkUp b capacity s
  | .operationEndReport b seq o => Sys2Proof.Machine.execOperationEndReport b seq o s
  | .fullReset => Sys2Proof.Machine.execFullReset s
  | .leaseTick => Sys2Proof.Machine.execLeaseTick s
  | .transferTick => Sys2Proof.Machine.execTransferTick s
  | .leaseExpiry slot => Sys2Proof.Machine.execLeaseExpiry slot s
  | .claimWaitTimeout e => Sys2Proof.Machine.execClaimWaitTimeout e s
  | .holdTimeout h => Sys2Proof.Machine.execHoldTimeout h s
  | .openTimeout => Sys2Proof.Machine.execOpenTimeout s
  | .drainLimitExpiry => Sys2Proof.Machine.execDrainLimitExpiry s
  | .transferTimeout b => Sys2Proof.Machine.execTransferTimeout b s
  | .checkCompletion => Sys2Proof.Machine.execCheckCompletion s
  | .swap => Sys2Proof.Machine.execSwap s
  | .entryIntoService b => Sys2Proof.Machine.execEntryIntoService b s
  | .issue b => Sys2Proof.Machine.execIssue b s
  | .loanEnd slot => Sys2Proof.Machine.execLoanEnd slot s
  | .grantFromQueue e => Sys2Proof.Machine.execGrantFromQueue e s
  | .conversion e => Sys2Proof.Machine.execConversion e s
  | .eventNotice => Sys2Proof.Machine.execEventNotice s
  | .malformedFrame p payload => Sys2Proof.Machine.execMalformedFrame p payload s
  | .unknownCodeFrame p code f => Sys2Proof.Machine.execUnknownCodeFrame p code f s

end Sys2Proof.Machine
end

