-- ==== Sys2Proof/Machine/Wire.lean ====
section
/-! DEFINITION. Replies and notices as bytes: item layouts (R156) and the lend frame the switch sends (R150, R151). -/

namespace Sys2Proof.Machine

/-- A handle in an item: slot and issue as in the header, none as slot 65535 and issue 255 (R154). -/
def handleBytes : Option Handle → List Byte
  | some h => beBytes 2 h.slot ++ beBytes 1 h.issue.toNat ++ [0]
  | none => [255, 255, 255, 0]

/-- An extent in an item: none as 65535 (R154). -/
def extentBytes (e : Option Nat) : List Byte := beBytes 2 (e.getD 65535)

/-- A port in an item: absent as 255 (R154). -/
def portBytes (p : Option PortId) : List Byte := beBytes 1 (p.elim 255 (·.val))

/-- Tags in use: tag t counted as 2^(t mod 8) in byte t / 8 (R156). -/
def tagBytes (tags : BitVec 64) : List Byte := (List.range 8).map (fun i => tags.extractLsb' (8 * i) 8)

/-- The bytes of an item (R156): each field in the order and the size of its layout. -/
def Item.bytes : Item → List Byte
  | .data bs => bs
  | .extentRecord ext bayNo base k settings ceiling programmed effective reason =>
    beBytes 2 ext ++ beBytes 1 bayNo ++ beBytes 5 base ++ beBytes 1 k ++ beBytes 1 settings
      ++ beBytes 1 ceiling ++ beBytes 1 programmed ++ beBytes 1 effective ++ beBytes 1 reason
  | .stagedRecord ext bayNo base k settings ceiling programmed comparison =>
    beBytes 2 ext ++ beBytes 1 bayNo ++ beBytes 5 base ++ beBytes 1 k ++ beBytes 1 settings
      ++ beBytes 1 ceiling ++ beBytes 1 programmed ++ beBytes 1 comparison
  | .extentLoan summary loans upgrade drain openReads entries onWaitList holderItems queueItems =>
    beBytes 1 summary ++ beBytes 2 loans ++ handleBytes upgrade ++ beBytes 1 drain ++ beBytes 1 openReads
      ++ beBytes 2 entries ++ beBytes 1 onWaitList ++ beBytes 2 holderItems ++ beBytes 2 queueItems
  | .holder handle nodeId mode state cls remaining outstanding =>
    handleBytes (some handle) ++ beBytes 2 nodeId ++ beBytes 1 mode ++ beBytes 1 state ++ beBytes 1 cls
      ++ beBytes 1 remaining ++ beBytes 1 outstanding
  | .queue nodeId tag kind cls wait port upgrade =>
    beBytes 2 nodeId ++ beBytes 1 tag ++ beBytes 1 kind ++ beBytes 1 cls ++ beBytes 1 wait ++ beBytes 1 port
      ++ handleBytes upgrade
  | .loanRecord slot issue state holderId ext mode cls remaining writes doubtful outstanding cause reason
      owed owedTag owedPort =>
    beBytes 2 slot ++ beBytes 1 issue ++ beBytes 1 state ++ beBytes 2 holderId ++ beBytes 2 ext
      ++ beBytes 1 mode ++ beBytes 1 cls ++ beBytes 1 remaining ++ beBytes 2 writes ++ beBytes 1 doubtful
      ++ beBytes 1 outstanding ++ beBytes 1 cause ++ beBytes 1 reason ++ beBytes 1 owed
      ++ beBytes 1 owedTag ++ beBytes 1 owedPort
  | .loanStatus handle ext mode state cls remaining outstanding =>
    handleBytes (some handle) ++ beBytes 2 ext ++ beBytes 1 mode ++ beBytes 1 state ++ beBytes 1 cls
      ++ beBytes 1 remaining ++ beBytes 1 outstanding
  | .clock count run order u0 u1 u2 u3 =>
    beBytes 2 count ++ beBytes 1 run ++ beBytes 1 order ++ beBytes 1 u0 ++ beBytes 1 u1 ++ beBytes 1 u2
      ++ beBytes 1 u3
  | .bay bayNo state capacity timeouts queued owed inFlight kind nodeId tag handle first count ticks sent =>
    beBytes 1 bayNo ++ beBytes 1 state ++ beBytes 5 capacity ++ beBytes 1 timeouts ++ beBytes 1 queued
      ++ beBytes 1 owed ++ beBytes 1 inFlight ++ beBytes 1 kind ++ beBytes 2 nodeId ++ beBytes 1 tag
      ++ handleBytes handle ++ beBytes 5 first ++ beBytes 1 count ++ beBytes 1 ticks ++ beBytes 1 sent
  | .bayIdle bayNo state capacity timeouts queued owed =>
    beBytes 1 bayNo ++ beBytes 1 state ++ beBytes 5 capacity ++ beBytes 1 timeouts ++ beBytes 1 queued
      ++ beBytes 1 owed ++ List.replicate 17 0
  | .transfer kind nodeId tag handle ext first count =>
    beBytes 1 kind ++ beBytes 2 nodeId ++ beBytes 1 tag ++ handleBytes handle ++ extentBytes ext
      ++ beBytes 5 first ++ beBytes 1 count
  | .watch nodeId latched state => beBytes 2 nodeId ++ bytes32 latched ++ beBytes 1 state
  | .fence fenceNo bayNo base k kind action localEnable globalEnable hit enabled =>
    beBytes 1 fenceNo ++ beBytes 1 bayNo ++ beBytes 5 base ++ beBytes 1 k ++ beBytes 1 kind ++ beBytes 1 action
      ++ beBytes 1 localEnable ++ beBytes 1 globalEnable ++ beBytes 1 hit ++ beBytes 1 enabled
  | .heldClaim entry nodeId tag code ext mode port remaining marks =>
    beBytes 1 entry ++ beBytes 2 nodeId ++ beBytes 1 tag ++ beBytes 1 code ++ beBytes 2 ext
      ++ List.replicate 4 0 ++ beBytes 1 mode ++ List.replicate 5 0 ++ beBytes 1 port ++ beBytes 1 remaining
      ++ [marks]
  | .held entry nodeId tag code ext handle mode offset count port remaining marks =>
    beBytes 1 entry ++ beBytes 2 nodeId ++ beBytes 1 tag ++ beBytes 1 code ++ beBytes 2 ext
      ++ handleBytes handle ++ beBytes 1 mode ++ beBytes 4 offset ++ beBytes 1 count ++ beBytes 1 port ++ beBytes 1 remaining
      ++ [marks]
  | .node nodeId role state port quota write ceiling heldCount waiting tags =>
    beBytes 2 nodeId ++ beBytes 1 role ++ beBytes 1 state ++ portBytes port ++ beBytes 1 quota
      ++ beBytes 1 write ++ beBytes 1 ceiling ++ beBytes 1 heldCount ++ beBytes 1 waiting ++ tagBytes tags
  | .eventRecord kind flag noticed level present a b c =>
    beBytes 1 kind ++ beBytes 1 flag ++ beBytes 1 noticed ++ beBytes 1 level ++ beBytes 1 present
      ++ beBytes 2 a ++ beBytes 2 b ++ beBytes 4 c

/-- The size of an item (R156); data have the size they have. -/
def Item.size : Item → Nat
  | .data bs => bs.length
  | .extentRecord .. => 14
  | .stagedRecord .. => 13
  | .extentLoan .. => 16
  | .holder .. => 11
  | .queue .. => 11
  | .loanRecord .. => 20
  | .loanStatus .. => 11
  | .clock .. => 8
  | .bay .. => 27
  | .bayIdle .. => 27
  | .transfer .. => 16
  | .watch .. => 7
  | .fence .. => 14
  | .heldClaim .. | .held .. => 20
  | .node .. => 18
  | .eventRecord .. => 13

/-- The marks byte: TORN 1, PASSED 2 (R150). -/
def OutFrame.marks (o : OutFrame) : Nat := markCode o.torn + 2 * markCode o.passed

/-- A frame the switch sends, as the fields of a lend header with its body (R150, R151): kind REPLY 2 or
NOTICE 3, and zero in each field its code does not name. -/
def OutFrame.toFrame (o : OutFrame) : Frame where
  kind := if o.notice then 3 else 2
  status := BitVec.ofNat 8 (if o.notice then 0 else o.status.code)
  node := BitVec.ofNat 16 o.node
  tag := BitVec.ofNat 8 o.tag
  marks := BitVec.ofNat 8 o.marks
  slot := BitVec.ofNat 16 (o.handle.elim 0 (·.slot))
  issue := (o.handle.elim 0 (·.issue)).setWidth 8
  handlePad := 0
  extent := BitVec.ofNat 16 o.extent
  argA := BitVec.ofNat 8 o.argA
  argB := BitVec.ofNat 8 o.argB
  offset := BitVec.ofNat 32 o.offset
  blockHigh := 0
  generation := o.generation
  units := BitVec.ofNat 8 o.units
  body := (o.body.map Item.bytes).flatten

/-- The bytes of the lend frame that leaves when a frame of an egress list is sent (R150, R151, R161). -/
def OutFrame.payload (o : OutFrame) : List Byte := frameBytes (BitVec.ofNat 8 o.code) o.toFrame

end Sys2Proof.Machine
end

