-- ==== Sys2Proof/Safety.lean ====
section
/-! DEFINITION. What the statements are stated with: frames of whole blocks, what a request that is taken finds
and leaves, replies made now and replies made later, changes told to watchers, the bytes of frames that leave, the tests of
a check, and the invariants of a run. -/

namespace Sys2Proof.Machine

/-! ### Frames -/

/-- The parts of the state: the block diagram's blocks, the count of open choices and the command queue. -/
inductive Block where
  | ports | roster | map | loans | clock | bays | watches | fences | loader | events | choices | pending
deriving DecidableEq, Repr

/-- A block is the same in two states. -/
def Block.same (b : Block) (s t : State) : Prop :=
  match b with
  | .ports => t.ports = s.ports
  | .roster => t.roster = s.roster
  | .map => t.map = s.map
  | .loans => t.loans = s.loans
  | .clock => t.clock = s.clock
  | .bays => t.bays = s.bays
  | .watches => t.watches = s.watches
  | .fences => t.fences = s.fences
  | .loader => t.loader = s.loader
  | .events => t.events = s.events
  | .choices => t.choices = s.choices
  | .pending => t.pending = s.pending

/-- From one state to the other no block changes but the listed ones. -/
def OnlyChanges (bs : List Block) (s t : State) : Prop := ∀ b, b ∉ bs → b.same s t

/-- Events differ in noticed marks alone, and a mark that is set stays set: what notice tests do to the
Event Unit (R167). -/
def NoticedOnly (s t : State) : Prop :=
  t.events.mask = s.events.mask ∧
    ∀ k, ∃ m : Bool, t.event k = { s.event k with noticed := (s.event k).noticed || m }

/-! ### Invariants of a run -/

/-- Every table of the state is in its canonical form: keys rise, and no entry is what an unlisted key
reads as. -/
def State.tables (s : State) : Prop :=
  s.roster.rising = true ∧ s.map.records.rising = true ∧ s.map.pairs.canonical Pair.zero = true
    ∧ s.loans.table.canonical (LoanRec.free 0) = true ∧ s.loans.extents.canonical ExtentLoans.idle = true
    ∧ s.watches.rising = true ∧ s.fences.held.rising = true ∧ s.loader.staging.rising = true

/-- The capacities of the part: 512 roster records, 1024 watch records, 16 held entries in places H0..H15, 1024
claim entries in all queues together, 16 transfers queued at each bay, loans in slots 0..8191 alone, and effective and
staged records at extent numbers 0..4095 alone. -/
def State.withinCapacity (s : State) : Prop :=
  s.tables ∧ s.roster.length ≤ 512 ∧ s.watches.length ≤ 1024 ∧ (∀ x ∈ s.fences.held, x.1 < 16)
    ∧ s.poolUsed ≤ 1024 ∧ (∀ b, (s.bay b).queue.length ≤ 16)
    ∧ (∀ n, 8192 ≤ n → (s.loan n).state = .free)
    ∧ ∀ e, 4096 ≤ e → s.map.records.look e = none ∧ s.loader.staging.look e = none

/-- Exactly one record holds the AUTHORITY role (R139). -/
def State.oneAuthority (s : State) : Prop :=
  s.roster.rising = true ∧ ∃ n, ∀ m, s.isAuthority m = true ↔ m = n

/-- A port's counts (R159, R161 to R163): the notice count is the number of notices in the list and at most 64,
at most 448 reservations are held, and a DOWN port has an empty list and both counts 0. -/
def State.portCounts (s : State) : Prop :=
  ∀ p, (s.port p).notices = ((s.port p).egress.filter (fun x => x.frame.notice)).length
    ∧ (s.port p).notices ≤ 64 ∧ (s.port p).reservations ≤ 448
    ∧ ((s.port p).up = false →
        (s.port p).egress = [] ∧ (s.port p).reservations = 0 ∧ (s.port p).notices = 0)

/-- Every ARMED watch holds a latched generation equal to the current generation of its extent (R90), and the
record of a node and an extent stands at their key. -/
def State.watchesCurrent (s : State) : Prop :=
  ∀ x ∈ s.watches, x.1 = watchKey x.2.extent x.2.node
    ∧ (x.2.state = .armed → x.2.latched = (s.pair x.2.extent).gen)

/-- No extent has a SOLE loan together with any other loan record (R20), and a FREE slot holds nothing but
its issue (R18). -/
def State.loansApart (s : State) : Prop :=
  s.loans.table.rising = true
    ∧ (∀ a b, a ≠ b → (s.loan a).state ≠ .free → (s.loan b).state ≠ .free →
        (s.loan a).extent = (s.loan b).extent → (s.loan a).mode = .shared ∧ (s.loan b).mode = .shared)
    ∧ ∀ n, (s.loan n).state = .free → s.loan n = LoanRec.free (s.loan n).issue

/-- Event records (R165): the first detail is present exactly while the flag is set, the noticed mark is set only
while the flag is, and levels and the mask level are 0..3. -/
def State.eventShape (s : State) : Prop :=
  s.events.mask ≤ 3 ∧ ∀ k, (s.event k).detail.isSome = (s.event k).flag
    ∧ ((s.event k).noticed = true → (s.event k).flag = true) ∧ (s.event k).level ≤ 3

/-- A map meets R2: every record is on a bay 0..23, of a size 2^0 to 2^26 at a base that is a multiple of it, inside the
2^36 blocks of a bay, with a lease ceiling 0..3, and two different records on one bay have no block in common. -/
def LegalMap (m : Tab ExtentRec) : Prop :=
  (∀ e r, m.look e = some r → r.bay ≤ 23 ∧ r.k ≤ 26 ∧ r.base % 2 ^ r.k = 0 ∧ r.base + 2 ^ r.k ≤ 2 ^ 36 ∧ r.ceiling ≤ 3)
    ∧ ∀ e d r q, e ≠ d → m.look e = some r → m.look d = some q → r.bay = q.bay →
        r.base + 2 ^ r.k ≤ q.base ∨ q.base + 2 ^ q.k ≤ r.base

/-- The effective map is legal, and so is the staging map while the loader is DRAINING. -/
def State.mapLegal (s : State) : Prop :=
  LegalMap s.map.records ∧ (s.loader.state = .draining → LegalMap s.loader.staging)

/-! ### Bytes of the frames that leave -/

/-- The number that bytes hold, most significant first (R150; in items assumption 10). -/
def valueOf : List Byte → Nat
  | [] => 0
  | b :: bs => b.toNat * 256 ^ bs.length + valueOf bs

/-- Bytes spell a run of fields, each a size in bytes and a value: every field holds its value, and nothing follows. -/
def Spells : List Byte → List (Nat × Nat) → Prop
  | bs, [] => bs = []
  | bs, (size, v) :: fields =>
    size ≤ bs.length ∧ valueOf (bs.take size) = v % 256 ^ size ∧ Spells (bs.drop size) fields

/-- A handle in an item: slot, issue and a zero byte; none is slot 65535 and issue 255 (R150, R154). -/
def handleFields : Option Handle → List (Nat × Nat)
  | some h => [(2, h.slot), (1, h.issue.toNat), (1, 0)]
  | none => [(2, 65535), (1, 255), (1, 0)]

/-- A run of one-byte fields. -/
def bytesEach (vs : List Nat) : List (Nat × Nat) := vs.map (fun v => (1, v))

/-- The fields of an item in the order and the sizes of R156. -/
def Item.fields : Item → List (Nat × Nat)
  | .data bs => bytesEach (bs.map (·.toNat))
  | .extentRecord ext b base k settings ceiling programmed effective reason =>
    [(2, ext), (1, b), (5, base)] ++ bytesEach [k, settings, ceiling, programmed, effective, reason]
  | .stagedRecord ext b base k settings ceiling programmed comparison =>
    [(2, ext), (1, b), (5, base)] ++ bytesEach [k, settings, ceiling, programmed, comparison]
  | .extentLoan summary loans upgrade drain openReads entries onWaitList holders queued =>
    [(1, summary), (2, loans)] ++ handleFields upgrade
      ++ [(1, drain), (1, openReads), (2, entries), (1, onWaitList), (2, holders), (2, queued)]
  | .holder h n mode st cls remaining outstanding =>
    handleFields (some h) ++ (2, n) :: bytesEach [mode, st, cls, remaining, outstanding]
  | .queue n tag kind cls wait port upgrade =>
    (2, n) :: bytesEach [tag, kind, cls, wait, port] ++ handleFields upgrade
  | .loanRecord slot issue st n ext mode cls remaining writes doubtful outstanding cause reason owed owedTag owedPort =>
    [(2, slot), (1, issue), (1, st), (2, n), (2, ext), (1, mode), (1, cls), (1, remaining), (2, writes)]
      ++ bytesEach [doubtful, outstanding, cause, reason, owed, owedTag, owedPort]
  | .loanStatus h ext mode st cls remaining outstanding =>
    handleFields (some h) ++ (2, ext) :: bytesEach [mode, st, cls, remaining, outstanding]
  | .clock count run order u0 u1 u2 u3 => (2, count) :: bytesEach [run, order, u0, u1, u2, u3]
  | .bay b st capacity timeouts queued owed inFlight kind n tag h first count ticks sent =>
    [(1, b), (1, st), (5, capacity), (1, timeouts), (1, queued), (1, owed), (1, inFlight), (1, kind), (2, n), (1, tag)]
      ++ handleFields h ++ [(5, first), (1, count), (1, ticks), (1, sent)]
  | .bayIdle b st capacity timeouts queued owed =>
    [(1, b), (1, st), (5, capacity), (1, timeouts), (1, queued), (1, owed), (1, 0), (1, 0), (2, 0), (1, 0), (2, 0),
      (1, 0), (1, 0), (5, 0), (1, 0), (1, 0), (1, 0)]
  | .transfer kind n tag h ext first count =>
    [(1, kind), (2, n), (1, tag)] ++ handleFields h ++ [(2, ext.getD 65535), (5, first), (1, count)]
  | .watch n latched st => [(2, n), (4, latched.toNat), (1, st)]
  | .fence i b base k kind action localOn globalOn hit enabled =>
    [(1, i), (1, b), (5, base)] ++ bytesEach [k, kind, action, localOn, globalOn, hit, enabled]
  | .heldClaim place n tag code ext mode port remaining marks =>
    [(1, place), (2, n), (1, tag), (1, code), (2, ext), (2, 0), (1, 0), (1, 0), (1, mode), (4, 0), (1, 0), (1, port),
      (1, remaining), (1, marks.toNat)]
  | .held place n tag code ext h mode offset count port remaining marks =>
    [(1, place), (2, n), (1, tag), (1, code), (2, ext)] ++ handleFields h
      ++ [(1, mode), (4, offset), (1, count), (1, port), (1, remaining), (1, marks.toNat)]
  | .node n role st port quota write ceiling loans queued tags =>
    (2, n) :: bytesEach ([role, st, port.elim 255 (·.val), quota, write, ceiling, loans, queued]
      ++ (List.range 8).map (fun i => tags.toNat / 256 ^ i % 256))
  | .eventRecord kind flag noticed level present a b c =>
    bytesEach [kind, flag, noticed, level, present] ++ [(2, a), (2, b), (4, c)]

/-- The fields of bytes 0 to 27 of the header of a frame that leaves (R150, R151): version 1, kind REPLY 2 or NOTICE 3, a
notice's status 0, the marks TORN 1 and PASSED 2, the handle's fields zero where its code names none, block high 0, and the
length of the body. -/
def OutFrame.fields (o : OutFrame) (bodyLength : Nat) : List (Nat × Nat) :=
  [(1, 1), (1, if o.notice then 3 else 2), (1, o.code), (1, if o.notice then 0 else o.status.code), (2, o.node),
    (1, o.tag), (1, (if o.torn then 1 else 0) + if o.passed then 2 else 0), (2, o.handle.elim 0 (·.slot)),
    (1, o.handle.elim 0 (·.issue.toNat)), (1, 0), (2, o.extent), (1, o.argA), (1, o.argB), (4, o.offset), (1, 0),
    (4, o.generation.toNat), (1, o.units), (2, bodyLength)]

/-! ### Requests that are taken -/

/-- A frame with this code is admitted at a port: its link is UP, a reservation is free, and every ingress check
passes (R159, R160); `legal` says that the fields the code reads hold legal values. -/
def Taken (s : State) (p : PortId) (code : Nat) (f : Frame) (legal : Bool) : Prop :=
  (s.port p).up = true ∧ (s.port p).reservations < 448 ∧ s.ingressRefusal code f legal = none

/-- A record after the admission of a frame of node `f.node` at port `p` (R140): the sender's takes the tag, the
port and, from ENROLLED, the state PRESENT. -/
def State.nodeAfter (s : State) (p : PortId) (f : Frame) (n : Nat) : Option NodeRec :=
  if n = f.node.toNat then
    (s.node n).map (fun r => { r with
      tags := r.tags ||| (1#64 <<< f.tag.toNat), learned := some p
      state := if r.state = .enrolled then .present else r.state })
  else s.node n

/-- The state on which a block takes an admitted frame: the reservation taken and the admission made (R140, R159). -/
def State.admitted (s : State) (p : PortId) (code : Nat) (f : Frame) : State :=
  admitReq (s.reqOf p code f) (takeReservation p s)

/-- The roster differs by that admission alone. -/
def SenderAdmitted (s t : State) (p : PortId) (f : Frame) : Prop := ∀ n, t.node n = s.nodeAfter p f n

/-- A reply to a frame with a status and nothing else (R151): its code, node id and tag. -/
def plainReply (code : Nat) (f : Frame) (st : Status) : OutFrame :=
  ⟨false, code, st, f.node.toNat, f.tag.toNat, false, false, none, 0, 0, 0, 0, 0, 0, []⟩

/-- The reply to a loader request: the loader state in arg B (R121). -/
def loaderReply (code : Nat) (f : Frame) (st : Status) (l : LoaderState) : OutFrame :=
  { plainReply code f st with argB := l.code }

/-- At port `p` the frame has taken its reservation, and its reply has joined the list after any EVENT notices
that its admission let go; the other ports are as they were. -/
def Replied (s t : State) (p : PortId) (o : OutFrame) : Prop :=
  (∀ q, q ≠ p → t.port q = s.port q) ∧
    ∃ ns : List OutFrame, (∀ n ∈ ns, n.notice = true ∧ n.code = 99) ∧
      t.port p = { s.port p with
        reservations := (s.port p).reservations + 1, notices := (s.port p).notices + ns.length
        egress := (s.port p).egress ++ ns.map (fun n => ⟨n, false⟩) ++ [⟨o, true⟩] }

/-- At port `p` the frame has taken its reservation and holds it: no reply yet. -/
def Unanswered (s t : State) (p : PortId) : Prop :=
  (∀ q, q ≠ p → t.port q = s.port q) ∧
    ∃ ns : List OutFrame, (∀ n ∈ ns, n.notice = true ∧ n.code = 99) ∧
      t.port p = { s.port p with
        reservations := (s.port p).reservations + 1, notices := (s.port p).notices + ns.length
        egress := (s.port p).egress ++ ns.map (fun n => ⟨n, false⟩) }

/-- The reply of a frame refused at ingress: a loader request's carries the loader state (R121; assumption 9). -/
def State.refusalOf (s : State) (code : Nat) (f : Frame) (st : Status) : OutFrame :=
  { plainReply code f st with argB := if isLoaderCode code then s.loader.state.code else 0 }

/-- A frame is refused at ingress with `o` (R160): it takes a reservation, its reply joins the port's list and
frees no tag (R161), and nothing else changes. -/
def RefusedAtIngress (s t : State) (p : PortId) (o : OutFrame) : Prop :=
  t = setPort p { s.port p with
    reservations := (s.port p).reservations + 1, egress := (s.port p).egress ++ [⟨o, false⟩] } s

/-- EVENT notices may have joined the ports' lists, and nothing else is new there: no reply is made and no
reservation taken. -/
def NoticesOnly (s t : State) : Prop :=
  ∀ q, ∃ ns : List OutFrame, (∀ n ∈ ns, n.notice = true ∧ n.code = 99) ∧
    t.port q = { s.port q with
      notices := (s.port q).notices + ns.length, egress := (s.port q).egress ++ ns.map (fun n => ⟨n, false⟩) }

/-- A request was admitted, answered with `o`, and changed no block beside its admission but the listed ones. -/
def Done (s t : State) (p : PortId) (f : Frame) (o : OutFrame) (bs : List Block) : Prop :=
  Replied s t p o ∧ SenderAdmitted s t p f ∧ NoticedOnly s t
    ∧ OnlyChanges (.ports :: .roster :: .events :: bs) s t

/-- A reply with this frame stands in the egress list of port `p`, ready to leave and to free its tag. -/
def Ready.at (t : State) (p : PortId) (o : OutFrame) : Prop := (⟨o, true⟩ : Ready) ∈ (t.port p).egress

/-- A request that waited is answered with a status: where its port is UP in the round of its reservation, the
reply joins that port's list (R161); elsewhere it is discarded and its tag leaves the tags in use (R163). -/
def Answered (s t : State) (q : Req) (st : Status) : Prop :=
  if (s.port q.port).up = true ∧ q.round = (s.port q.port).round then
    ∃ o : OutFrame, Ready.at t q.port o ∧ o.notice = false ∧ o.code = q.code ∧ o.status = st
      ∧ o.node = q.node ∧ o.tag = q.tag ∧ o.passed = q.passed
  else ∀ r, t.node q.node = some r → r.tags.getLsbD q.tag = false

/-- A frame is the reply to a request with a status, and its leaving frees the tag (R151, R161). -/
def ReplyTo (q : Req) (st : Status) (x : Ready) : Prop :=
  x.freesTag = true ∧ x.frame.notice = false ∧ x.frame.code = q.code ∧ x.frame.status = st ∧ x.frame.node = q.node
    ∧ x.frame.tag = q.tag

/-- Two frames that pass `first` and `second` have joined the list of port `p`, the first one before the other. -/
def JoinedInOrder (s t : State) (p : PortId) (first second : Ready → Prop) : Prop :=
  ∃ (a c : Ready) (before between after : List Ready), first a ∧ second c ∧ (s.port p).egress <+: before
    ∧ (t.port p).egress = before ++ [a] ++ between ++ [c] ++ after

/-- Where the replies to two requests leave on one port, in the round of both reservations, the first stands before the
second. -/
def RepliedInOrder (s t : State) (q : Req) (st : Status) (r : Req) (st' : Status) : Prop :=
  q.port = r.port → (s.port q.port).up = true → q.round = (s.port q.port).round → r.round = (s.port q.port).round →
    JoinedInOrder s t q.port (ReplyTo q st) (ReplyTo r st')

/-- A reply has joined the list of port `p` behind all that stands there. -/
def State.sent (s : State) (p : PortId) (o : OutFrame) : State :=
  setPort p { s.port p with egress := (s.port p).egress ++ [⟨o, true⟩] } s

/-- A node notice reaches a node (R140, R162): its learned port is UP with a notice place free, and the notice
stands in its list. -/
def Notified (s t : State) (n : Nat) (o : OutFrame) : Prop :=
  ∀ r p, s.node n = some r → r.learned = some p → s.noticeFree p = true →
    (⟨o, false⟩ : Ready) ∈ (t.port p).egress

/-- An occurrence has been taken (R166): a clear flag is set with its detail, and a set flag keeps its own. -/
def Recorded (s t : State) (k : EventKind) (d : Detail) : Prop :=
  (t.event k.num).flag = true
    ∧ (t.event k.num).detail = if (s.event k.num).flag then (s.event k.num).detail else some d

/-- A transfer in flight at its issue with a link sequence number (R70): no tick taken, its reply-sent mark clear, and
the operation that the bay link received: a write for WRITE and SERVICE WRITE, with the data, and a read for the
other kinds. -/
def justIssued (x : Transfer) (seq : BitVec 16) : InFlight where
  transfer := x
  operation :=
    { write := decide (x.kind = .write ∨ x.kind = .serviceWrite), first := x.first, count := x.count,
      data := if x.kind = .write ∨ x.kind = .serviceWrite then x.data else [], seq := seq }
  seq := seq
  ticks := 0
  replySent := false

/-- A transfer has joined a bay's queue (R69, R70): with nothing queued or in flight it is issued at once with the
next link sequence number, and otherwise it stands at the tail. -/
def BayJoined (s t : State) (b : Nat) (x : Transfer) : Prop :=
  (∀ c, c ≠ b → t.bay c = s.bay c) ∧
    t.bay b =
      if (s.bay b).queue = [] ∧ (s.bay b).inFlight = none then
        { s.bay b with seq := (s.bay b).seq + 1, inFlight := some (justIssued x ((s.bay b).seq + 1)) }
      else { s.bay b with queue := (s.bay b).queue ++ [x] }

/-- The reply to a request that waited, as it leaves where its port is UP in the round of its reservation. -/
def AnsweredWith (t : State) (q : Req) (o : OutFrame) : Prop :=
  (t.port q.port).up = true → q.round = (t.port q.port).round → Ready.at t q.port o

/-- A request is answered RESET at a Lending Reset (R141, R149, R161): its reply joins its port's list, freeing no tag
when it leaves, because the tag has left its node's tags in use already. -/
def AnsweredReset (s t : State) (q : Req) : Prop :=
  ((s.port q.port).up = true → q.round = (s.port q.port).round →
    ∃ o : OutFrame, (⟨o, false⟩ : Ready) ∈ (t.port q.port).egress ∧ o.notice = false ∧ o.code = q.code
      ∧ o.status = .reset ∧ o.node = q.node ∧ o.tag = q.tag ∧ o.passed = q.passed)
  ∧ ∀ r, t.node q.node = some r → r.tags.getLsbD q.tag = false

/-- Every record of the roster is as `f` makes it, but for tags that have left its tags in use: those of requests that
`gone` picks, whose replies no port could take (R163). -/
def RosterAfter (s t : State) (gone : Req → Prop) (f : Nat → NodeRec → NodeRec) : Prop :=
  ∀ n, match s.node n with
    | none => t.node n = none
    | some r => ∃ tags, t.node n = some { f n r with tags := tags }
        ∧ ∀ k, (tags.getLsbD k = true → r.tags.getLsbD k = true)
          ∧ (r.tags.getLsbD k = true → (∀ q, gone q → q.node = n → q.tag ≠ k) → tags.getLsbD k = true)

/-- A request that waits in the switch for its reply: a waiting claim, a queued transfer, a release whose reply is owed,
a transfer in flight not yet answered, an owed SERVICE BAY or COMMIT LOAD, a held request. -/
def AwaitsReply (s : State) (q : Req) : Prop :=
  (∃ e, ∃ c ∈ (s.xl e).queue, q = c.req) ∨ (∃ b, ∃ x ∈ (s.bay b).queue, q = x.req)
    ∨ (∃ n, (s.loan n).releaseOwed = some q)
    ∨ (∃ b fl, (s.bay b).inFlight = some fl ∧ fl.replySent = false ∧ q = fl.transfer.req)
    ∨ (∃ b, (s.bay b).serviceOwed = some q) ∨ s.loader.commitOwed = some q ∨ ∃ x ∈ s.fences.held, q = x.2.req

/-- The Event Unit is told of a free notice place at port `p` (R162, R163, R167): the notice test is made where that is
the authority's learned port, and nothing happens elsewhere. -/
def ToldOfPlace (p : PortId) (s t : State) : Prop :=
  ((∃ n r, s.authority = some (n, r) ∧ r.learned = some p) → t = noticeTest s)
    ∧ ((∀ n r, s.authority = some (n, r) → r.learned ≠ some p) → t = s)

/-- Every ARMED watch on the extent has become FIRED where `step`, and no other record has changed (R95). -/
def WatchesFired (s t : State) (e : Nat) (step : Bool) : Prop :=
  t.watches = if step then
    s.watches.map (fun x => (x.1, if x.2.extent = e then { x.2 with state := .fired } else x.2))
  else s.watches

/-- The CHANGE notice of an extent to a node, with the pair after the change and its reason's value (R95, R153, R154). -/
def changeFrame (n e : Nat) (v : Pair) (why : Nat) : OutFrame :=
  ⟨true, 98, .ok, n, 0, v.torn, false, none, e, why, 0, 0, v.gen, 0, []⟩

/-- The value of the reason of a loan's change: COMMIT 1 with the torn mark clear after it, TORN 2 with it set (R15,
R154). -/
def loanReason (torn : Bool) : Nat := if torn then 2 else 1

/-- The changes of the extents in `es`, each to its pair `v` with reason `why`, are told (R95, R96): the node of the one
ARMED watch on them gets its CHANGE notice at its learned port, or with no place free there NODE_NOTICE_LOST is raised. -/
def ChangeTold (s t : State) (es : List Nat) (v : Nat → Pair) (why : Nat) : Prop :=
  ∀ x r p, s.watches.filter (fun y => decide (y.2.extent ∈ es) && decide (y.2.state = .armed)) = [x] →
    s.node x.2.node = some r → r.learned = some p →
    (s.noticeFree p = true →
      (⟨changeFrame x.2.node x.2.extent (v x.2.extent) why, false⟩ : Ready) ∈ (t.port p).egress)
    ∧ (s.noticeFree p = false → Recorded s t .nodeNoticeLost ⟨x.2.node, p.val, 0⟩)

/-- Where that notice goes to port `p`, it stands there before a frame that passes `reply` (R97). -/
def ChangeBefore (s t : State) (es : List Nat) (v : Nat → Pair) (why : Nat) (p : PortId) (reply : Ready → Prop) : Prop :=
  ∀ x r, s.watches.filter (fun y => decide (y.2.extent ∈ es) && decide (y.2.state = .armed)) = [x] →
    s.node x.2.node = some r → r.learned = some p → s.noticeFree p = true →
    JoinedInOrder s t p (fun a => a = ⟨changeFrame x.2.node x.2.extent (v x.2.extent) why, false⟩) reply

/-- The staging map has become the effective map (R135): the extents of `es` are at generation 0 and unmarked, their
watches are gone, no fence has its local enable, and the loader holds nothing. -/
def MapSwapped (s t : State) (es : List Nat) : Prop :=
  t.map.records = s.loader.staging ∧ (∀ e, t.pair e = if e ∈ es then ⟨0, false⟩ else s.pair e)
    ∧ t.watches = s.watches.filter (fun x => decide (x.2.extent ∉ es))
    ∧ (∀ i, t.fence i = { s.fence i with localEnable := false }) ∧ t.fences.held = s.fences.held
    ∧ t.loader = Loader.reset

/-- The swap has been made, the drain marks of `es` are clear, and no other loan state has changed. -/
def Swapped (s t : State) (es : List Nat) : Prop :=
  MapSwapped s t es
    ∧ (∀ e, t.xl e = if e ∈ es then { s.xl e with drainMark := false } else s.xl e)
    ∧ t.loans.table = s.loans.table ∧ t.loans.tableWait = s.loans.tableWait

/-! ### The check of a load -/

/-- Record `e`, which is `r`, of a map fails the test of this number in R128's table: BAY 1, SIZE 2, ALIGNMENT 3, END 4,
CEILING 5, OVERLAP 6. -/
def TestFails (m : Tab ExtentRec) (e : Nat) (r : ExtentRec) : Nat → Prop
  | 1 => 23 < r.bay
  | 2 => 26 < r.k
  | 3 => r.base % 2 ^ r.k ≠ 0
  | 4 => 2 ^ 36 - 1 < r.base + 2 ^ r.k - 1
  | 5 => 3 < r.ceiling
  | 6 => ∃ d q, d < e ∧ m.look d = some q ∧ q.bay = r.bay ∧ q.base < r.base + 2 ^ r.k ∧ r.base < q.base + 2 ^ q.k
  | _ => False

/-- The walk of a map in ascending number, with the tests of each record in the order of their numbers, ends at record
`e` with test `why` (R128). -/
def WalkEnds (m : Tab ExtentRec) (e why : Nat) : Prop :=
  ∃ r, m.look e = some r ∧ TestFails m e r why ∧ (∀ w, w < why → ¬ TestFails m e r w)
    ∧ ∀ d q w, d < e → m.look d = some q → ¬ TestFails m d q w

/-! ### Loans that end quietly -/

/-- The handle names a live loan of the node (R19). -/
def State.heldBy (s : State) (h : Handle) (n : Nat) : Prop :=
  (s.loan h.slot).state ≠ .free ∧ (s.loan h.slot).issue = h.issue ∧ (s.loan h.slot).holder = n

/-- Nothing waits on the end of a loan on the extent: no claim queue on it, no table-wait list, its bay is not
SERVICE_PENDING, and no load is DRAINING. -/
def State.quiet (s : State) (e : Nat) : Prop :=
  (s.xl e).queue = [] ∧ s.loans.tableWait = [] ∧ s.loader.state ≠ .draining
    ∧ ∀ r, s.extent e = some r → (s.bay r.bay).state ≠ .servicePending

/-- A loan's slot has become FREE and the effects of R38 stand: the issue stepped, the other slots kept, the
holder's held count one lower, and for a SOLE loan one update of its extent's generation and torn mark. -/
def LoanFreed (s t : State) (slot : Nat) (torn : Bool) : Prop :=
  t.loan slot = LoanRec.free ((s.loan slot).issue + 1)
    ∧ (∀ n, n ≠ slot → t.loan n = s.loan n)
    ∧ (∀ e, t.pair e =
        if e = (s.loan slot).extent ∧ (s.loan slot).mode = .sole then
          ⟨if 0 < (s.loan slot).writes then (s.pair e).gen + 1 else (s.pair e).gen, torn⟩
        else s.pair e)

/-! ### Loans that are revoked -/

/-- The transfers of the loan in a slot that are queued at its bay. -/
def State.queuedOf (s : State) (slot : Nat) : List Transfer :=
  (s.bay (s.bayOf (s.loan slot).extent)).queue.filter
    (fun x => decide (x.handle = some ⟨slot, (s.loan slot).issue⟩))

/-- A revocation leaves the loan CLOSING (R40): it has a transfer in flight, or it was CLOSING and more is outstanding
than was queued. -/
def State.keepsRevoked (s : State) (slot : Nat) : Bool :=
  if (s.loan slot).state = .closing then decide ((s.queuedOf slot).length < (s.loan slot).outstanding)
  else s.loanInFlight (s.bayOf (s.loan slot).extent) ⟨slot, (s.loan slot).issue⟩

/-- The record in a slot after the revocation of its loan (R40): CLOSING with cause REVOKED, its queued transfers no
longer outstanding, or FREE with the next issue. -/
def State.afterRevoke (s : State) (why : Reason) (slot : Nat) : LoanRec :=
  if s.keepsRevoked slot then
    { s.loan slot with
      state := .closing, cause := some (.revoked why)
      outstanding := (s.loan slot).outstanding - (s.queuedOf slot).length }
  else LoanRec.free ((s.loan slot).issue + 1)

/-- The transfer is one of a live loan that `pick` picks, and stands at that loan's bay. -/
def State.ofPicked (s : State) (b : Nat) (pick : Nat → Bool) (x : Transfer) : Bool :=
  match x.handle with
  | some h => s.live h && pick h.slot && decide (s.bayOf (s.loan h.slot).extent = b)
  | none => false

/-- Every loan that `pick` picks has been revoked (R40), and no other slot has changed: the records, the queued
transfers answered, a release reply owed on a loan now freed, and the REVOKED notices, as far as their ports are sure
to have had notice places for all the notices such a step can make. -/
def LoansRevoked (s t : State) (why : Reason) (st : Status) (pick : Nat → Bool) : Prop :=
  (∀ n, t.loan n = if (s.loan n).state ≠ .free ∧ pick n = true then s.afterRevoke why n else s.loan n)
  ∧ (∀ b x, x ∈ (s.bay b).queue → s.ofPicked b pick x = true → Answered s t x.req st)
  ∧ (∀ n q, (s.loan n).state ≠ .free → pick n = true → s.keepsRevoked n = false →
      (s.loan n).releaseOwed = some q → Answered s t q .loanEnded)
  ∧ ∀ n r p, (s.loan n).state ≠ .free → pick n = true → (s.loan n).holder ≠ 0 →
      s.node (s.loan n).holder = some r → r.learned = some p → (s.port p).up = true →
      (s.port p).notices + s.loans.table.length + 2 * s.watches.length + 16 < 64 →
      (⟨revokedNotice (s.loan n).holder ⟨n, (s.loan n).issue⟩ (s.loan n).extent why, false⟩ : Ready)
        ∈ (t.port p).egress

/-- The generations and torn marks after such revocations (R38 step 1): of an extent whose one loan was SOLE and is
freed, the mark is set and the generation steps if the loan had writes; extents without a freed SOLE loan keep theirs. -/
def PairsRevoked (s t : State) (pick : Nat → Bool) : Prop :=
  (∀ n, (s.loan n).state ≠ .free → pick n = true → (s.loan n).mode = .sole → s.keepsRevoked n = false →
    s.loansOn (s.loan n).extent = [(n, s.loan n)] →
    t.pair (s.loan n).extent =
      ⟨if 0 < (s.loan n).writes then (s.pair (s.loan n).extent).gen + 1 else (s.pair (s.loan n).extent).gen, true⟩)
  ∧ ∀ e, (∀ n, (s.loan n).state ≠ .free → pick n = true → (s.loan n).mode = .sole → (s.loan n).extent ≠ e) →
      t.pair e = s.pair e

/-- A SOLE loan with writes on the extent is freed by such revocations: its publication (R38 step 1) steps the
generation. -/
def State.publishedBy (s : State) (pick : Nat → Bool) (e : Nat) : Bool :=
  s.loans.table.any (fun y => decide (y.2.state ≠ .free) && pick y.1 && !s.keepsRevoked y.1 && decide (y.2.mode = .sole)
    && decide (0 < y.2.writes) && decide (y.2.extent = e))

/-- The watch records after such revocations (R95): on the extents with a publication every one is FIRED, and no other has
changed. -/
def State.watchesRevoked (s : State) (pick : Nat → Bool) : Tab Watch :=
  s.watches.map (fun x => (x.1, if s.publishedBy pick x.2.extent then { x.2 with state := .fired } else x.2))

/-- How many loans of a node such revocations free: the fall of its held count (R23). -/
def State.freedOf (s : State) (pick : Nat → Bool) (n : Nat) : Nat :=
  (s.loans.table.filter (fun y => decide (y.2.state ≠ .free) && decide (y.2.holder = n) && pick y.1
    && !s.keepsRevoked y.1)).length

/-- How many claim entries of a node, UPGRADE entries apart, wait on these extents: their share of its waiting count
(R23). -/
def State.waitingAt (s : State) (es : List Nat) (n : Nat) : Nat :=
  (es.map (fun e => ((s.xl e).queue.filter (fun c =>
    decide (c.req.node = n) && decide (c.kind = .shared ∨ c.kind = .sole))).length)).sum

/-- Every OPEN READ queued at a bay has no handle, as R68 has it: a hypothesis of statements about many transfers. -/
def State.openReadsPlain (s : State) : Prop :=
  ∀ b, ∀ x ∈ (s.bay b).queue, x.kind = .openRead → x.handle = none

/-- The forced revocations of a load (R132) on the extents `es`: every loan there but one already CLOSING with cause
REVOKED is revoked with reason MAP, and their queued OPEN READs are answered CANCELLED and leave the counts. -/
def State.forcedPick (s : State) (es : List Nat) (n : Nat) : Bool :=
  decide ((s.loan n).extent ∈ es) && !(s.loan n).revokedAlready

/-- An OPEN READ of one of the extents, at that extent's bay. -/
def State.openReadOn (s : State) (es : List Nat) (b : Nat) (x : Transfer) : Bool :=
  decide (x.kind = .openRead) && match x.extent with
    | some e => decide (e ∈ es) && decide (s.bayOf e = b)
    | none => false

/-- What R132 leaves of the loans and transfers on the extents `es`. -/
def ForcedOut (s t : State) (es : List Nat) : Prop :=
  LoansRevoked s t .map .cancelled (s.forcedPick es)
  ∧ (∀ b, t.bay b = { s.bay b with
      queue := (s.bay b).queue.filter (fun x => !(s.ofPicked b (s.forcedPick es) x || s.openReadOn es b x)) })
  ∧ (∀ b x, x ∈ (s.bay b).queue → s.openReadOn es b x = true → Answered s t x.req .cancelled)
  ∧ ∀ e, (t.xl e).openReads = (s.xl e).openReads -
      if e ∈ es then ((s.bay (s.bayOf e)).queue.filter (s.openReadOn [e] (s.bayOf e))).length else 0

/-! ### A bay entering service -/

/-- What the refusals of a SERVICE BAY (R80 step 3) leave of the claims that wait on bay `b`: each is answered IN_SERVICE
and its queue is empty. -/
def ClaimsInService (s t : State) (b : Nat) : Prop :=
  (∀ e ∈ s.bayExtents b, ∀ c ∈ (s.xl e).queue, Answered s t c.req .inService)
  ∧ (∀ e, (t.xl e).queue = if e ∈ s.bayExtents b then [] else (s.xl e).queue)
  ∧ (∀ e, (t.xl e).drainMark = (s.xl e).drainMark)
  ∧ t.map.records = s.map.records ∧ t.loans.tableWait = s.loans.tableWait

/-- An UPGRADE entry of the slot waits on bay `b`. -/
def State.upgradeWaitsOn (s : State) (b slot : Nat) : Bool :=
  (s.bayExtents b).any (fun e => (s.xl e).queue.any (fun c =>
    match c.kind with
    | .upgrade h => decide (h.slot = slot)
    | .shared | .sole => false))

/-- The slot's loan is on an extent of bay `b`. -/
def State.lentOn (s : State) (b slot : Nat) : Bool := decide ((s.loan slot).extent ∈ s.bayExtents b)

/-! ### Things due at a tick -/

/-- A loan whose class tap is fired has units left for more than this tap. -/
def State.loansLast (s : State) (t : Taps) (n : Nat) : Prop :=
  (s.loan n).state = .held ∨ (s.loan n).state = .upgrading → t.ofClass (s.loan n).cls = true → 1 < (s.loan n).remaining

/-- With these taps fired on state `s`, exactly one thing falls due in the ageing block (R53), by the row's command in the
state whose units and seconds are taken: one loan expires (R58), the entries of one extent time out (R30), one hold runs
out (R109), or the open or the drain timer does (R126, R134). -/
inductive OneDue (t : Taps) (s : State) : AgeingBlock → Instr → State → Prop where
  | loan (slot : Fin 8192) : s.tables →
      (s.loan slot).state = .held ∨ (s.loan slot).state = .upgrading → t.ofClass (s.loan slot).cls = true →
      (s.loan slot).remaining = 1 → (∀ n, n ≠ slot.val → s.loansLast t n) →
      (t.hz1 = true → ∀ e, ∀ c ∈ (s.xl e).queue, 1 < c.wait) →
      OneDue t s .loans (.leaseExpiry slot) (takeUnits t s)
  | wait (e : Fin 4096) : s.tables → t.hz1 = true → (∃ c ∈ (s.xl e).queue, c.wait = 1) →
      (∀ x, x ≠ e.val → ∀ c ∈ (s.xl x).queue, 1 < c.wait) → (∀ n, s.loansLast t n) →
      OneDue t s .loans (.claimWaitTimeout e) (takeUnits t s)
  | hold (i : Fin 16) (h : Held) : s.tables → (i.val, h) ∈ s.fences.held → h.remaining = 1 →
      (∀ x ∈ s.fences.held, x.1 ≠ i.val → 1 < x.2.remaining) →
      OneDue t s .holds (.holdTimeout i)
        (setHeld (s.fences.held.map (fun x => (x.1, { x.2 with remaining := x.2.remaining - 1 }))) s)
  | openTimer : s.loader.state = .opened → s.loader.openTimer = some 1 →
      OneDue t s .loader .openTimeout (setLoader { s.loader with openTimer := some 0 } s)
  | drainTimer : s.loader.state = .draining → s.loader.drainTimer = some 1 →
      OneDue t s .loader .drainLimitExpiry (setLoader { s.loader with drainTimer := some 0 } s)

end Sys2Proof.Machine
end

