-- ==== Sys2Proof/Certificates/Slice0/Obligations.lean ====
section
/-! DEFINITION. The statements for the provers. A command's statement says which state it answers with, for every
state and operands that meet hypotheses on the state and the operands alone. -/

open Sys2Proof Sys2Proof.Machine

/-! ### Steps and frames -/

/-- A step takes the command at the front of the queue and runs it on the state with the queue's rest. That a step is one
whole command is 95_what_each_step_holds.md's; that commands wait in one queue, first in first out, is the model's choice
(assumption 1). -/
def Obligations.StepTakesTheFront : Prop :=
  ∀ (c : Instr) (rest : List Instr) (s : State),
    step { s with pending := c :: rest } = exec c { s with pending := rest }

/-- No command faults or is refused, and none touches the commands that wait: every command answers a next
state with the same queue. With an empty queue a step changes nothing (the model's choice, assumption 1). -/
def Obligations.EveryStepAnswers : Prop :=
  (∀ (c : Instr) (s : State), ∃ t, exec c s = .next t ∧ t.pending = s.pending)
  ∧ ∀ s : State, s.pending = [] → step s = .next s

/-- The payload written for a frame command, with any padding behind it, is read back as that command, with its
port, code, every header field and the whole body. The payload of a frame that leaves spells R150's header fields, sums
with its check to 2^32 - 1, holds the body behind, and passes the frame tests; an item's bytes spell the fields of R156;
statuses, states, kinds and reasons have the values of R154 and R155. (Item fields of several bytes are most significant
byte first: assumption 10.) -/
def Obligations.FramesReadBack : Prop :=
  (∀ (i : Instr) (p : PortId) (code : BitVec 8) (f : Frame) (padding : List Byte),
    i.wellFormed = true → i.asFrame = some (p, code, f) →
      decodeFrame p (frameBytes code f ++ padding) = i)
  ∧ (∀ o : OutFrame, (o.body.map Item.bytes).flatten.length ≤ 8192 →
      Spells (o.payload.take 28) (o.fields (o.body.map Item.bytes).flatten.length)
      ∧ ((List.range 8).map (fun i => valueOf ((o.payload.drop (4 * i)).take 4))).sum % 2 ^ 32 = 2 ^ 32 - 1
      ∧ o.payload.drop 32 = (o.body.map Item.bytes).flatten
      ∧ frameOk o.payload = true)
  ∧ (∀ x : Item, Spells x.bytes x.fields)
  ∧ [Status.ok, .granted, .busy, .claimTimeout, .conflict, .duplicate, .notPermitted, .quota, .tableFull, .poolFull,
      .staleLoan, .loanEnded, .range, .noExtent, .fenced, .fenceTimeout, .rejected, .notHeld, .bayFull, .bayDown,
      .inService, .beyondDisk, .bayState, .bayError, .bayTimeout, .bayLost, .cancelled, .tagBusy, .unknownNode, .barred,
      .notAuthority, .mapPending, .watchFull, .notWatched, .loaderState, .loaderBusy, .checkFailed, .drainTimeout,
      .aborted, .rosterFull, .badRequest, .reset].map Status.code = List.range 42
  ∧ [Mode.shared, .sole].map Mode.code = [0, 1]
  ∧ (∀ h, [EntryKind.shared, .sole, .upgrade h].map EntryKind.code = [0, 1, 2])
  ∧ [LoanState.free, .held, .upgrading, .closing].map LoanState.code = [0, 1, 2, 3]
  ∧ [Summary.idle, .shared, .sole].map Summary.code = [0, 1, 2]
  ∧ (∀ r, [none, some .released, some .expired, some (.revoked r)].map causeCode = [0, 1, 2, 3]
      ∧ [none, some .released, some .expired, some (.revoked r)].map causeReason = [0, 0, 0, r.code])
  ∧ [Reason.management, .map, .service, .bayLost, .bayFailed, .barred, .reset].map Reason.code = [1, 2, 3, 4, 5, 6, 7]
  ∧ [ChangeReason.commit, .torn, .service, .map, .stale].map ChangeReason.code = [1, 2, 3, 4, 5]
  ∧ [Policy.parked, .library, .asset, .assetOpen, .priv, .output].map Policy.code = [0, 1, 2, 3, 4, 5]
  ∧ [BayState.absent, .ready, .servicePending, .service, .failed].map BayState.code = [0, 1, 2, 3, 4]
  ∧ [TransferKind.read, .write, .openRead, .serviceRead, .serviceWrite].map TransferKind.code = [0, 1, 2, 3, 4]
  ∧ [WatchState.armed, .fired].map WatchState.code = [0, 1]
  ∧ [FenceKind.soleClaim, .write, .any].map FenceKind.code = [0, 1, 2]
  ∧ [FenceAction.refuse, .hold].map FenceAction.code = [0, 1]
  ∧ [LoaderState.idle, .opened, .checking, .draining].map LoaderState.code = [0, 1, 2, 3]
  ∧ [CheckReason.bay, .size, .alignment, .end_, .ceiling, .overlap].map CheckReason.code = [1, 2, 3, 4, 5, 6]
  ∧ [Role.render, .authority].map Role.code = [0, 1]
  ∧ [NodeState.enrolled, .present, .barred].map NodeState.code = [0, 1, 2]
  ∧ [RunState.running, .stopped].map RunState.code = [0, 1]
  ∧ [none, some RunOrder.stop, some .run].map orderCode = [0, 1, 2]
  ∧ [false, true].map markCode = [0, 1]

/-! ### Invariants of a run -/

/-- Full reset's state meets every invariant below. -/
def Obligations.ResetMeetsTheInvariants : Prop :=
  State.reset.withinCapacity ∧ State.reset.oneAuthority ∧ State.reset.portCounts ∧ State.reset.watchesCurrent
    ∧ State.reset.loansApart ∧ State.reset.eventShape ∧ State.reset.mapLegal

/-- Every step keeps the tables canonical and the capacities, with loans in slots 0..8191 alone and effective and staged
records at extent numbers 0..4095 alone. -/
def Obligations.StepsKeepTheCapacities : Prop :=
  ∀ s t : State, s.withinCapacity → step s = .next t → t.withinCapacity

/-- Every step keeps exactly one record in the AUTHORITY role. -/
def Obligations.StepsKeepOneAuthority : Prop :=
  ∀ s t : State, s.oneAuthority → step s = .next t → t.oneAuthority

/-- Every step keeps the port counts. -/
def Obligations.StepsKeepThePortCounts : Prop :=
  ∀ s t : State, s.portCounts → step s = .next t → t.portCounts

/-- Every step keeps the ARMED watches at their extents' current generations. -/
def Obligations.StepsKeepArmedWatchesCurrent : Prop :=
  ∀ s t : State, s.watchesCurrent → step s = .next t → t.watchesCurrent

/-- Every step keeps a SOLE loan alone on its extent. -/
def Obligations.StepsKeepSoleLoansAlone : Prop :=
  ∀ s t : State, s.loansApart → step s = .next t → t.loansApart

/-- Every step keeps the shape of the event records. -/
def Obligations.StepsKeepTheEventRecords : Prop :=
  ∀ s t : State, s.eventShape → step s = .next t → t.eventShape

/-- Every step keeps the effective map legal, and the staging map of a load that is DRAINING: no record outside the limits
of R2, no two on one bay that have a block in common. -/
def Obligations.StepsKeepTheMapLegal : Prop :=
  ∀ s t : State, s.mapLegal → step s = .next t → t.mapLegal

/-! ### Ports -/

/-- The frame tests: a payload passes them exactly when none of R158's four lines holds; one that fails is no frame
command and is discarded on an UP port with no reply and no reservation, raising BAD_FRAME with the port; one that
passes is the command of its code. -/
def Obligations.FrameTests : Prop :=
  (∀ payload : List Byte,
    (frameOk payload = false ↔
      (payload.length < 32 ∨ field32 payload 28 ≠ headerCheck payload ∨ byteAt payload 0 ≠ 1
        ∨ (8192 < (field16 payload 26).toNat ∨ payload.length < 32 + (field16 payload 26).toNat))))
  ∧ (∀ (p : PortId) (payload : List Byte), frameOk payload = true →
      decodeFrame p payload = requestOf p (byteAt payload 2) (parseFrame payload))
  ∧ ∀ (s : State) (p : PortId) (payload : List Byte), frameOk payload = false →
      decodeFrame p payload = .malformedFrame p payload
      ∧ ((s.port p).up = true → ∃ t, exec (.malformedFrame p payload) s = .next t
          ∧ Recorded s t .badFrame ⟨0, p.val, 0⟩ ∧ NoticesOnly s t ∧ OnlyChanges [.ports, .events] s t)

/-- The handle field holds an illegal value (R150, R160). -/
def BadHandle (f : Frame) : Prop := 8191 < f.slot.toNat ∨ 15 < f.issue.toNat ∨ f.handlePad ≠ 0

/-- A count other than 1 or 2 (R160). -/
def BadCount (f : Frame) : Prop := f.argB.toNat ≠ 1 ∧ f.argB.toNat ≠ 2

/-- A node id of 0 or above 4095 in the offset field (R160). -/
def BadNodeId (f : Frame) : Prop := f.offset.toNat = 0 ∨ 4095 < f.offset.toNat

/-- The node setting item holds an illegal value, or the body has not its length (R160). -/
def BadSetting (f : Frame) : Prop :=
  f.body.length ≠ 4 ∨ (byteAt f.body 0).toNat = 0 ∨ 64 < (byteAt f.body 0).toNat ∨ 1 < (byteAt f.body 1).toNat
    ∨ 3 < (byteAt f.body 2).toNat ∨ 1 < (byteAt f.body 3).toNat

/-- A field that the request reads holds an illegal value, or its body has another length than its code requires: the
lines of R160 step 6 beside kind, tag and code, for each code of R152. -/
def IllegalValue : Instr → Prop
  | .claim _ f => 4095 < f.extent.toNat ∨ 7 < f.argA.toNat ∨ f.body ≠ []
  | .renew _ f | .downgrade _ f | .release _ f | .revokeLoan _ f => BadHandle f ∨ f.body ≠ []
  | .read _ f => BadHandle f ∨ BadCount f ∨ f.body ≠ []
  | .write _ f => BadHandle f ∨ BadCount f ∨ f.body.length ≠ f.argB.toNat * 4096
  | .openRead _ f => 4095 < f.extent.toNat ∨ BadCount f ∨ f.body ≠ []
  | .watch _ f => 4095 < f.extent.toNat ∨ 1 < f.argA.toNat ∨ f.body ≠ []
  | .unwatch _ f | .readExtent _ f | .unstageExtent _ f | .readStaged _ f | .readWatches _ f =>
    4095 < f.extent.toNat ∨ f.body ≠ []
  | .readLoan _ f => 8191 < f.slot.toNat ∨ f.body ≠ []
  | .stageExtent _ f => 4095 < f.extent.toNat ∨ f.body.length ≠ 14 ∨ 7 < (byteAt f.body 9).toNat
  | .commitLoad _ f => 3 < f.argA.toNat ∨ f.argB.toNat = 0 ∨ f.body ≠ []
  | .serviceBay _ f => 23 < f.extent.toNat ∨ 1 < f.argA.toNat ∨ f.body ≠ []
  | .serviceRead _ f => 23 < f.extent.toNat ∨ 15 < f.blockHigh.toNat ∨ BadCount f ∨ f.body ≠ []
  | .serviceWrite _ f =>
    23 < f.extent.toNat ∨ 15 < f.blockHigh.toNat ∨ BadCount f ∨ f.body.length ≠ f.argB.toNat * 4096
  | .returnBay _ f | .readBay _ f => 23 < f.extent.toNat ∨ f.body ≠ []
  | .setFence _ f =>
    7 < f.argA.toNat ∨ f.body.length ≠ 14 ∨ 2 < (byteAt f.body 8).toNat ∨ 1 < (byteAt f.body 9).toNat
      ∨ 1 < (byteAt f.body 10).toNat ∨ 1 < (byteAt f.body 11).toNat
  | .releaseHeld _ f | .rejectHeld _ f => 15 < f.argA.toNat ∨ 63 < f.argB.toNat ∨ BadNodeId f ∨ f.body ≠ []
  | .enrollNode _ f => BadNodeId f ∨ BadSetting f ∨ (byteAt f.body 3).toNat = 1
  | .setNode _ f => BadNodeId f ∨ BadSetting f
  | .barNode _ f | .unbarNode _ f | .removeNode _ f | .readNode _ f => BadNodeId f ∨ f.body ≠ []
  | .setLeaseClass _ f => 3 < f.argA.toNat ∨ f.units.toNat = 0 ∨ f.body ≠ []
  | .setEventLevels _ f => f.body.length ≠ 16 ∨ ∃ b ∈ f.body, 3 < b.toNat
  | .setMaskLevel _ f => 3 < f.argA.toNat ∨ f.body ≠ []
  | .nodeStatus _ f | .openLoad _ f | .discardLoad _ f | .clearFenceHits _ f | .readFences _ f | .listHeld _ f
  | .clockStop _ f | .clockRun _ f | .clockReset _ f | .readClock _ f | .clearEvents _ f | .readEvents _ f
  | .lendingReset _ f => f.body ≠ []
  | .unknownCodeFrame _ _ _ => True
  | .portLinkDown _ | .portLinkUp _ | .frameLeaves _ | .bayLinkDown _ | .bayLinkUp _ _ | .operationEndReport _ _ _
  | .fullReset | .leaseTick | .transferTick | .leaseExpiry _ | .claimWaitTimeout _ | .holdTimeout _ | .openTimeout
  | .drainLimitExpiry | .transferTimeout _ | .checkCompletion | .swap | .entryIntoService _ | .issue _ | .loanEnd _
  | .grantFromQueue _ | .conversion _ | .eventNotice | .malformedFrame _ _ => False

/-- A frame on a DOWN port is not taken and nothing changes; at 448 reservations it is dropped with no reply, raising
INGRESS_DROP with the header's node id and the port. Else the ingress checks, in their order: the first that fails gives
the reply, and nothing else changes. A code outside the request table counts as a management code; step 6 refuses it, a
kind other than REQUEST, a tag above 63 and every illegal value of each request code BAD_REQUEST. The loader state in the
refusal of a loader request is the model's reading (assumption 9), and so is the limit of a held request's tag
(assumption 12). -/
def Obligations.Ingress : Prop :=
  (∀ (i : Instr) (p : PortId) (code : BitVec 8) (f : Frame) (s : State), i.asFrame = some (p, code, f) →
     ((s.port p).up = false → exec i s = .next s)
     ∧ ((s.port p).up = true → 448 ≤ (s.port p).reservations → ∃ t, exec i s = .next t
         ∧ Recorded s t .ingressDrop ⟨f.node.toNat, p.val, 0⟩ ∧ NoticesOnly s t
         ∧ OnlyChanges [.ports, .events] s t))
  ∧ ∀ (i : Instr) (p : PortId) (code : BitVec 8) (f : Frame) (s : State), i.asFrame = some (p, code, f) →
      (s.port p).up = true → (s.port p).reservations < 448 →
      (s.node f.node.toNat = none →
        ∃ t, exec i s = .next t ∧ RefusedAtIngress s t p (s.refusalOf code.toNat f .unknownNode))
      ∧ ∀ r, s.node f.node.toNat = some r →
          (r.state = .barred →
            ∃ t, exec i s = .next t ∧ RefusedAtIngress s t p (s.refusalOf code.toNat f .barred))
          ∧ (r.state ≠ .barred → r.tags.getLsbD f.tag.toNat = true →
              ∃ t, exec i s = .next t ∧ RefusedAtIngress s t p (s.refusalOf code.toNat f .tagBusy))
          ∧ (r.state ≠ .barred → r.tags.getLsbD f.tag.toNat = false →
              (¬ (1 ≤ code.toNat ∧ code.toNat ≤ 10) → r.role = .render →
                ∃ t, exec i s = .next t ∧ RefusedAtIngress s t p (s.refusalOf code.toNat f .notAuthority))
              ∧ (1 ≤ code.toNat → code.toNat ≤ 10 → r.role = .authority →
                ∃ t, exec i s = .next t ∧ RefusedAtIngress s t p (s.refusalOf code.toNat f .notPermitted))
              ∧ ((1 ≤ code.toNat ∧ code.toNat ≤ 10 ↔ r.role = .render) →
                (f.kind ≠ 1 ∨ 63 < f.tag.toNat ∨ IllegalValue i) →
                ∃ t, exec i s = .next t ∧ RefusedAtIngress s t p (s.refusalOf code.toNat f .badRequest)))

/-- PORT_LINK_DOWN: an UP port is DOWN, one link round on, with an empty list and both counts 0, and the tag of each
discarded reply that still held it leaves its node's tags in use. PORT_LINK_UP: a DOWN port is UP in its link round,
with both counts 0 and no frame but the EVENT notices that may now leave: the notice test is made where the authority's
learned port has come up. Where the link is so already, nothing changes. FRAME_LEAVES: the head of an UP port's list
leaves. A reply releases its reservation and its tag leaves its node's tags in use, unless it is one that frees none; a
notice frees its place, and the notice test is made where it left the authority's learned port. With the list empty, or
the port DOWN, nothing leaves. (A link event in the state it leads to, and a DOWN port's frames: assumption 31.) -/
def Obligations.PortLinksAndFrameLeaves : Prop :=
  (∀ (s : State) (p : PortId),
     ((s.port p).up = false → exec (.portLinkDown p) s = .next s)
     ∧ ((s.port p).up = true → ∃ t, exec (.portLinkDown p) s = .next t
         ∧ OnlyChanges [.ports, .roster] s t
         ∧ t.port p = ⟨false, (s.port p).round + 1, 0, 0, []⟩ ∧ (∀ q, q ≠ p → t.port q = s.port q)
         ∧ ∀ n, match s.node n with
           | none => t.node n = none
           | some r => ∃ tags, t.node n = some { r with tags := tags }
               ∧ ∀ k, k < 64 → tags.getLsbD k = (r.tags.getLsbD k &&
                   !(s.port p).egress.any (fun x =>
                     x.freesTag && decide (x.frame.node = n) && decide (x.frame.tag = k)))))
  ∧ (∀ (s u : State) (p : PortId),
      ((s.port p).up = true → exec (.portLinkUp p) s = .next s)
      ∧ ((s.port p).up = false → u = setPort p ⟨true, (s.port p).round, 0, 0, []⟩ s →
          ∃ t, exec (.portLinkUp p) s = .next t ∧ ToldOfPlace p u t
            ∧ NoticesOnly u t ∧ NoticedOnly s t ∧ OnlyChanges [.ports, .events] s t))
  ∧ ∀ (s : State) (p : PortId),
    ((s.port p).up = false ∨ (s.port p).egress = [] → exec (.frameLeaves p) s = .next s)
    ∧ ∀ (x : Ready) (rest : List Ready), (s.port p).up = true → (s.port p).egress = x :: rest →
      ∃ t, exec (.frameLeaves p) s = .next t
        ∧ (x.frame.notice = false →
            OnlyChanges [.ports, .roster] s t ∧ (∀ q, q ≠ p → t.port q = s.port q)
            ∧ t.port p = { s.port p with egress := rest, reservations := (s.port p).reservations - 1 }
            ∧ ∀ n, t.node n =
                if x.freesTag = true ∧ n = x.frame.node then
                  (s.node n).map (fun r => { r with tags := r.tags &&& ~~~ (1#64 <<< x.frame.tag) })
                else s.node n)
        ∧ (x.frame.notice = true →
            ∀ u, u = setPort p { s.port p with egress := rest, notices := (s.port p).notices - 1 } s →
            ToldOfPlace p u t ∧ NoticesOnly u t ∧ NoticedOnly s t ∧ OnlyChanges [.ports, .events] s t)

/-! ### Events -/

/-- Taking an occurrence: on a clear flag the flag is set with its detail and the noticed mark is clear, and if the
record then qualifies the notice test is made; a set flag keeps its record. -/
def Obligations.OccurrenceTaken : Prop :=
  ∀ (k : EventKind) (d : Detail) (s : State),
    ((s.event k.num).flag = true → raise k d s = s)
    ∧ ((s.event k.num).flag = false → ∃ u,
        u.event k.num = ⟨true, false, (s.event k.num).level, some d⟩
        ∧ (∀ j, j ≠ k.num → u.event j = s.event j) ∧ u.events.mask = s.events.mask
        ∧ OnlyChanges [.events] s u
        ∧ raise k d s = if s.events.mask < (s.event k.num).level then noticeTest u else u)

/-- EVENT_NOTICE: where the authority has a learned port with its link UP and a notice place free, the lowest-numbered
qualifying record is noticed: its mark is set and its EVENT notice joins that port's list. Where a condition fails
nothing changes. The notice test is EVENT_NOTICE over and over until a condition fails: an EVENT_NOTICE before it changes
nothing of what it leaves; where an EVENT_NOTICE changes nothing the test stops, changing nothing either; and after it the
authority has no learned port, or that port is DOWN or has no notice place free, or no record qualifies. (The row as a
command of its own: assumption 3.) -/
def Obligations.EventNotices : Prop :=
  (∀ s : State,
     (∀ (n : Nat) (r : NodeRec) (p : PortId) (k : Nat) (d : Detail),
       s.authority = some (n, r) → r.learned = some p → (s.port p).up = true → (s.port p).notices < 64 →
       k < 16 → (s.event k).qualifies s.events.mask = true → (s.event k).detail = some d →
       (∀ j, j < k → (s.event j).qualifies s.events.mask = false) →
       ∃ t, exec .eventNotice s = .next t ∧ OnlyChanges [.ports, .events] s t ∧ t.events.mask = s.events.mask
         ∧ (∀ j, t.event j = if j = k then { s.event k with noticed := true } else s.event j)
         ∧ (∀ q, q ≠ p → t.port q = s.port q)
         ∧ t.port p = { s.port p with
             notices := (s.port p).notices + 1
             egress := (s.port p).egress ++ [⟨{ noticeFrame 99 n with
               argA := k, argB := (s.event k).level
               body := [.eventRecord k 1 1 (s.event k).level 1 d.a d.b d.c] }, false⟩] })
     ∧ ((∀ n r p, s.authority = some (n, r) → r.learned = some p →
           (s.port p).up = false ∨ 64 ≤ (s.port p).notices
             ∨ ∀ k, k < 16 → (s.event k).qualifies s.events.mask = false) →
         exec .eventNotice s = .next s))
  ∧ (∀ s t : State, exec .eventNotice s = .next t → noticeTest t = noticeTest s)
  ∧ (∀ s : State, exec .eventNotice s = .next s → noticeTest s = s)
  ∧ ∀ (s : State) (n : Nat) (r : NodeRec) (p : PortId),
      (noticeTest s).authority = some (n, r) → r.learned = some p →
        ((noticeTest s).port p).up = false ∨ 64 ≤ ((noticeTest s).port p).notices
          ∨ ∀ k, k < 16 → ((noticeTest s).event k).qualifies (noticeTest s).events.mask = false

/-- From the admitted state `u` the levels and the mask level are taken, then the notice test is made where a record
qualifies that did not before, and then the reply `o` is handed to port `p`. -/
def LevelsTaken (u t : State) (p : PortId) (o : OutFrame) (level : Nat → Nat) (mask : Nat) : Prop :=
  ∃ v w : State, OnlyChanges [.events] u v ∧ v.events.mask = mask
    ∧ (∀ k, k < 16 → v.event k = { u.event k with level := level k })
    ∧ ((∃ k, k < 16 ∧ (v.event k).qualifies mask = true ∧ (u.event k).qualifies u.events.mask = false) →
        w = noticeTest v)
    ∧ ((∀ k, k < 16 → (v.event k).qualifies mask = true → (u.event k).qualifies u.events.mask = true) → w = v)
    ∧ t = setPort p { w.port p with egress := (w.port p).egress ++ [⟨o, true⟩] } w

/-- SET EVENT LEVELS and SET MASK LEVEL: the levels, or the mask level, are taken; flags and details stay, and noticed
marks only by the notices now made, which stand before the reply: the notice test is made where a record newly
qualifies. So where one record does, and a notice place is free, its mark is set and its notice stands before OK. -/
def Obligations.EventLevels : Prop :=
  ∀ (s : State) (p : PortId) (f : Frame), s.oneAuthority →
    (Taken s p 64 f (legalLevels f) → ∃ t, exec (.setEventLevels p f) s = .next t
      ∧ Replied s t p (plainReply 64 f .ok) ∧ SenderAdmitted s t p f
      ∧ OnlyChanges [.ports, .roster, .events] s t ∧ t.events.mask = s.events.mask
      ∧ (∀ k, k < 16 → ∃ m : Bool, t.event k =
          { s.event k with level := bodyByte f k, noticed := (s.event k).noticed || m })
      ∧ LevelsTaken (s.admitted p 64 f) t p (plainReply 64 f .ok) (bodyByte f) s.events.mask
      ∧ ∀ k d, k < 16 → (∀ j, j < 16 → (s.event j).qualifies s.events.mask = false) → (s.port p).notices < 64 →
          (s.event k).flag = true → (s.event k).noticed = false → (s.event k).detail = some d →
          s.events.mask < bodyByte f k →
          (∀ j, j < 16 → j ≠ k → (s.event j).flag = true → (s.event j).noticed = false →
            bodyByte f j ≤ s.events.mask) →
          t.event k = { s.event k with level := bodyByte f k, noticed := true }
          ∧ t.port p = { s.port p with
              reservations := (s.port p).reservations + 1, notices := (s.port p).notices + 1
              egress := (s.port p).egress ++ [⟨{ noticeFrame 99 f.node.toNat with
                argA := k, argB := bodyByte f k
                body := [.eventRecord k 1 1 (bodyByte f k) 1 d.a d.b d.c] }, false⟩,
                ⟨plainReply 64 f .ok, true⟩] })
    ∧ (Taken s p 65 f (legalMask f) → ∃ t, exec (.setMaskLevel p f) s = .next t
      ∧ Replied s t p (plainReply 65 f .ok) ∧ SenderAdmitted s t p f
      ∧ OnlyChanges [.ports, .roster, .events] s t ∧ t.events.mask = f.argA.toNat
      ∧ (∀ k, ∃ m : Bool, t.event k = { s.event k with noticed := (s.event k).noticed || m })
      ∧ LevelsTaken (s.admitted p 65 f) t p (plainReply 65 f .ok)
          (fun k => (s.event k).level) f.argA.toNat
      ∧ ∀ k d, k < 16 → (∀ j, j < 16 → (s.event j).qualifies s.events.mask = false) → (s.port p).notices < 64 →
          (s.event k).flag = true → (s.event k).noticed = false → (s.event k).detail = some d →
          f.argA.toNat < (s.event k).level →
          (∀ j, j < 16 → j ≠ k → (s.event j).flag = true → (s.event j).noticed = false →
            (s.event j).level ≤ f.argA.toNat) →
          t.event k = { s.event k with noticed := true }
          ∧ t.port p = { s.port p with
              reservations := (s.port p).reservations + 1, notices := (s.port p).notices + 1
              egress := (s.port p).egress ++ [⟨{ noticeFrame 99 f.node.toNat with
                argA := k, argB := (s.event k).level
                body := [.eventRecord k 1 1 (s.event k).level 1 d.a d.b d.c] }, false⟩,
                ⟨plainReply 65 f .ok, true⟩] })

/-- CLEAR EVENTS, on the admitted state: each kind of the set loses flag, noticed mark and first detail; records outside
the set, all levels and the mask level are unchanged, and the reply is OK; an empty set changes nothing. The next
occurrence of a cleared kind sets the flag with its own detail, and makes a notice test if the record qualifies. -/
def Obligations.ClearEvents : Prop :=
  ∀ (s : State) (p : PortId) (f : Frame), s.oneAuthority → Taken s p 66 f (legalPlain f) →
    ∃ t, exec (.clearEvents p f) s = .next t
      ∧ Replied s t p (plainReply 66 f .ok) ∧ SenderAdmitted s t p f
      ∧ OnlyChanges [.ports, .roster, .events] s t
      ∧ t.events.mask = (s.admitted p 66 f).events.mask
      ∧ (∀ k, k < 16 → f.extent.getLsbD k = true →
          t.event k = ⟨false, false, ((s.admitted p 66 f).event k).level, none⟩)
      ∧ (∀ k, f.extent.getLsbD k = false → t.event k = (s.admitted p 66 f).event k)
      ∧ ∀ (kind : EventKind) (d : Detail), f.extent.getLsbD kind.num = true →
          (if t.events.mask < (t.event kind.num).level then
            raise kind d t = noticeTest (setEvent kind.num ⟨true, false, (t.event kind.num).level, some d⟩ t)
          else raise kind d t = setEvent kind.num ⟨true, false, (t.event kind.num).level, some d⟩ t)

/-! ### Lease Clock -/

/-- CLOCK STOP and CLOCK RUN: the pending run order becomes STOP or RUN, replacing any other, the run state and all else
of the clock stay, and OK goes out in the same step. A render node's is refused NOT_AUTHORITY at ingress. A RUN that a
STOP's sender sends before the tick leaves the order RUN, and a tick finds an order equal to the run state as it finds
none. -/
def Obligations.ClockStopAndRun : Prop :=
  (∀ (s : State) (p : PortId) (f : Frame),
    (s.oneAuthority → Taken s p 60 f (legalPlain f) → ∃ t, exec (.clockStop p f) s = .next t
      ∧ Done s t p f (plainReply 60 f .ok) [.clock] ∧ t.clock = { s.clock with order := some .stop })
    ∧ (s.oneAuthority → Taken s p 61 f (legalPlain f) → ∃ t, exec (.clockRun p f) s = .next t
      ∧ Done s t p f (plainReply 61 f .ok) [.clock] ∧ t.clock = { s.clock with order := some .run })
    ∧ ∀ r, s.node f.node.toNat = some r → r.role = .render → r.state ≠ .barred →
        r.tags.getLsbD f.tag.toNat = false → (s.port p).up = true → (s.port p).reservations < 448 →
        (∃ t, exec (.clockStop p f) s = .next t ∧ RefusedAtIngress s t p (plainReply 60 f .notAuthority))
        ∧ ∃ t, exec (.clockRun p f) s = .next t ∧ RefusedAtIngress s t p (plainReply 61 f .notAuthority))
  ∧ ∀ s : State,
      (s.clock.run = .running →
        exec .leaseTick (setClock { s.clock with order := some .run } s)
          = exec .leaseTick (setClock { s.clock with order := none } s))
      ∧ (s.clock.run = .stopped →
        exec .leaseTick (setClock { s.clock with order := some .stop } s)
          = exec .leaseTick (setClock { s.clock with order := none } s))

/-- SET LEASE CLASS gives the class its new units and answers OK with them; CLOCK RESET sets the chain count to 0 and
keeps run state, order and table. No loan, wait, hold or timer changes. -/
def Obligations.LeaseClassAndClockReset : Prop :=
  ∀ (s : State) (p : PortId) (f : Frame), s.oneAuthority →
    (Taken s p 59 f (legalLeaseClass f) → ∃ t, exec (.setLeaseClass p f) s = .next t
      ∧ Done s t p f { plainReply 59 f .ok with units := f.units.toNat } [.clock]
      ∧ (∀ c, c < 4 → t.units c = if c = f.argA.toNat then f.units.toNat else s.units c)
      ∧ t.clock = { s.clock with units := t.clock.units })
    ∧ (Taken s p 62 f (legalPlain f) → ∃ t, exec (.clockReset p f) s = .next t
      ∧ Done s t p f (plainReply 62 f .ok) [.clock] ∧ t.clock = { s.clock with count := 0 })

/-- LEASE_TICK on every state: the pending order is applied and set back to absent, then the count advances (from 16383
to 0) while RUNNING and holds while STOPPED. Where the clock is then STOPPED, or the new count is no multiple of
256, no tap fires and nothing but the clock changes. -/
def Obligations.LeaseTickMovesTheClock : Prop :=
  ∀ s : State, ∃ t, exec .leaseTick s = .next t ∧ t.clock.order = none ∧ t.clock.units = s.clock.units
    ∧ t.clock.run = (match s.clock.order with
        | some .stop => .stopped
        | some .run => .running
        | none => s.clock.run)
    ∧ t.clock.count = (if t.clock.run = .running then s.clock.count + 1 else s.clock.count)
    ∧ (t.clock.run = .stopped ∨ (s.clock.count + 1).toNat % 256 ≠ 0 → OnlyChanges [.clock] s t)

/-- LEASE_TICK with taps fired and nothing falling due: each HELD or UPGRADING loan whose class tap fires loses a unit,
and at the 1 Hz tap every claim wait, every hold and the loader's timer lose a second; all else stays. (Assumption 16;
what falls due: LeaseTickMakesExpiries.) -/
def Obligations.LeaseTickTakesUnits : Prop :=
  ∀ s : State, s.tables → s.clock.order = none → s.clock.run = .running →
    (∀ n, (s.loan n).state = .held ∨ (s.loan n).state = .upgrading → 1 < (s.loan n).remaining) →
    (∀ e, ∀ c ∈ (s.xl e).queue, 1 < c.wait) →
    (∀ x ∈ s.fences.held, 1 < x.2.remaining) →
    (s.loader.openTimer.isSome = true → s.loader.state = .opened) →
    (s.loader.drainTimer.isSome = true → s.loader.state = .draining) →
    (∀ w, s.loader.openTimer = some w → 1 < w) → (∀ w, s.loader.drainTimer = some w → 1 < w) →
    ∃ t, exec .leaseTick s = .next t ∧ OnlyChanges [.clock, .loans, .fences, .loader, .choices] s t
      ∧ (∀ n, t.loan n =
          if ((s.loan n).state = .held ∨ (s.loan n).state = .upgrading)
              ∧ (s.clock.count + 1).toNat % (match (s.loan n).cls with
                  | 0 => 256 | 1 => 1024 | 2 => 4096 | _ => 16384) = 0 then
            { s.loan n with remaining := (s.loan n).remaining - 1 }
          else s.loan n)
      ∧ t.loans.tableWait = s.loans.tableWait ∧ t.fences.fences = s.fences.fences
      ∧ (if (s.clock.count + 1).toNat % 1024 = 0 then
          (∀ e, t.xl e = { s.xl e with
            queue := (s.xl e).queue.map (fun c => { c with wait := c.wait - 1 }) })
          ∧ t.fences.held = s.fences.held.map (fun x => (x.1, { x.2 with remaining := x.2.remaining - 1 }))
          ∧ t.loader = { s.loader with
              openTimer := s.loader.openTimer.map (· - 1), drainTimer := s.loader.drainTimer.map (· - 1) }
        else (∀ e, t.xl e = s.xl e) ∧ t.fences = s.fences ∧ t.loader = s.loader)

/-- A LEASE_TICK at which things fall due. The tick hands its taps to the Loan Engine, and at the 1 Hz tap to the Fence Unit
and the Map Loader, in an open order. A block in which exactly one thing falls due takes its units and seconds and then does
what that thing's row does: LEASE_EXPIRY of the one loan whose last unit goes, CLAIM_WAIT_TIMEOUT of the one extent where
waits run out, HOLD_TIMEOUT of the one hold, OPEN_TIMEOUT or DRAIN_LIMIT_EXPIRY of the loader's timer. So where that block
alone has something to age, the tick is the row's own command on the state whose clock has advanced and whose units are
taken. (Assumptions 3, 5 and 16.) -/
def Obligations.LeaseTickMakesExpiries : Prop :=
  (∀ s : State, s.clock.order = none → s.clock.run = .running → ∀ taps, taps = tapsAt (s.clock.count + 1) →
    (∃ (xs : List AgeingBlock) (n : Nat), xs.Perm (if taps.hz1 then [.loans, .holds, .loader] else [.loans])
      ∧ exec .leaseTick s = .next (xs.foldl (fun u x => ageBlock taps x u)
          { s with clock := { s.clock with count := s.clock.count + 1 }, choices := n }))
    ∧ ∀ x c v, s.ageingBlocks taps = [x] →
        OneDue taps { s with
          clock := { s.clock with count := s.clock.count + 1 }, choices := s.choices + 1 } x c v →
        exec .leaseTick s = exec c v)
  ∧ (∀ (taps : Taps) (s v : State) (x : AgeingBlock) (c : Instr), OneDue taps s x c v →
      .next (ageBlock taps x s) = exec c v)
  ∧ ∀ (taps : Taps) (s : State), s.tables → OnlyChanges [.loans] s (takeUnits taps s)
      ∧ (∀ n, (takeUnits taps s).loan n =
          if ((s.loan n).state = .held ∨ (s.loan n).state = .upgrading) ∧ taps.ofClass (s.loan n).cls = true then
            { s.loan n with remaining := (s.loan n).remaining - 1 }
          else s.loan n)
      ∧ (∀ e, (takeUnits taps s).xl e = if taps.hz1 then
            { s.xl e with queue := (s.xl e).queue.map (fun c => { c with wait := c.wait - 1 }) }
          else s.xl e)
      ∧ (takeUnits taps s).loans.tableWait = s.loans.tableWait

/-! ### Loans -/

/-- The policy that an extent's settings program, the loan modes and open reads that each policy allows, and the effective
policy: by the bay's state first, then by the capacity of a READY bay, and else the programmed one. -/
def Obligations.PolicyTables : Prop :=
  (∀ r : ExtentRec,
     (r.write = false → r.share = false → r.openR = false → r.policy = .parked)
     ∧ (r.write = false → r.share = false → r.openR = true → r.policy = .library)
     ∧ (r.write = false → r.share = true → r.openR = false → r.policy = .asset)
     ∧ (r.write = false → r.share = true → r.openR = true → r.policy = .assetOpen)
     ∧ (r.write = true → r.share = false → r.policy = .priv)
     ∧ (r.write = true → r.share = true → r.policy = .output))
  ∧ (∀ (v : Policy) (m : Mode), v.allows m = true ↔
      (v = .asset ∨ v = .assetOpen) ∧ m = .shared ∨ v = .priv ∧ m = .sole ∨ v = .output)
  ∧ (∀ v : Policy, v.allowsOpenRead = true ↔ v = .library ∨ v = .assetOpen)
  ∧ ∀ (s : State) (r : ExtentRec),
      ((s.bay r.bay).state = .absent ∨ (s.bay r.bay).state = .failed → s.effective r = .closed .bayDown)
      ∧ ((s.bay r.bay).state = .servicePending ∨ (s.bay r.bay).state = .service →
          s.effective r = .closed .inService)
      ∧ ((s.bay r.bay).state = .ready → (s.bay r.bay).capacity < r.base + 2 ^ r.k →
          s.effective r = .closed .beyondDisk)
      ∧ ((s.bay r.bay).state = .ready → r.base + 2 ^ r.k ≤ (s.bay r.bay).capacity →
          s.effective r = .lent r.policy)

/-- The checks of a claim that meets no fence: the first that fails gives the final reply, and nothing else
changes. -/
def Obligations.ClaimChecks : Prop :=
  ∀ (s : State) (p : PortId) (f : Frame) (nr : NodeRec), Taken s p 1 f (legalClaim f) →
    s.node f.node.toNat = some nr →
    (s.extent (extentOf f) = none →
      ∃ t, exec (.claim p f) s = .next t ∧ Done s t p f (plainReply 1 f .noExtent) [])
    ∧ ∀ r, s.extent (extentOf f) = some r →
      s.fenceAnswer (claimMode f).fencedKind r.bay r.base (2 ^ r.k) = .pass →
      (∀ why, s.effective r = .closed why →
        ∃ t, exec (.claim p f) s = .next t ∧ Done s t p f (plainReply 1 f why) [])
      ∧ ∀ pol, s.effective r = .lent pol →
        (pol.allows (claimMode f) = false ∨ claimMode f = .sole ∧ nr.write = false →
          ∃ t, exec (.claim p f) s = .next t ∧ Done s t p f (plainReply 1 f .notPermitted) [])
        ∧ (pol.allows (claimMode f) = true → (claimMode f = .sole → nr.write = true) →
          ((s.xl (extentOf f)).drainMark = true →
            ∃ t, exec (.claim p f) s = .next t ∧ Done s t p f (plainReply 1 f .mapPending) [])
          ∧ ((s.xl (extentOf f)).drainMark = false →
            ((∃ c ∈ (s.xl (extentOf f)).queue, c.req.node = f.node.toNat) →
              ∃ t, exec (.claim p f) s = .next t ∧ Done s t p f (plainReply 1 f .duplicate) [])
            ∧ ((∀ c ∈ (s.xl (extentOf f)).queue, c.req.node ≠ f.node.toNat) →
              (∀ x, s.ownLoan f.node.toNat (extentOf f) = some x →
                claimMode f = .shared ∨ x.2.state ≠ .held ∨ x.2.mode = .sole →
                ∃ t, exec (.claim p f) s = .next t ∧ Done s t p f (plainReply 1 f .duplicate) [])
              ∧ (s.ownLoan f.node.toNat (extentOf f) = none → nr.quota ≤ nr.held + nr.waiting →
                ∃ t, exec (.claim p f) s = .next t ∧ Done s t p f (plainReply 1 f .quota) []))))

/-- A claim has passed the nine checks: its extent is `r`, lent to its mode, not marked, and meets no fence; its sender `nr`
may claim the mode, has no entry and no loan there, and is below its quota. -/
def ClaimPasses (s : State) (f : Frame) (r : ExtentRec) (nr : NodeRec) : Prop :=
  s.node f.node.toNat = some nr ∧ s.extent (extentOf f) = some r
    ∧ s.fenceAnswer (claimMode f).fencedKind r.bay r.base (2 ^ r.k) = .pass
    ∧ (∃ pol, s.effective r = .lent pol ∧ pol.allows (claimMode f) = true)
    ∧ (claimMode f = .sole → nr.write = true) ∧ (s.xl (extentOf f)).drainMark = false
    ∧ (∀ c ∈ (s.xl (extentOf f)).queue, c.req.node ≠ f.node.toNat)
    ∧ (∀ x ∈ s.loansOn (extentOf f), x.2.holder ≠ f.node.toNat) ∧ nr.held + nr.waiting < nr.quota

/-- A claim past its checks. It is granted at once where the queue is empty and the summary allows its mode: the lowest FREE
slot takes the record of R26 and GRANTED goes out; with no FREE slot it is refused TABLE_FULL with its event. One that
cannot be granted at once has to wait: BUSY with wait limit 0, POOL_FULL with its event at 1024 entries, and else an entry
of its mode at the tail of the queue, with no reply yet. -/
def Obligations.ClaimDecided : Prop :=
  (∀ (s : State) (p : PortId) (f : Frame) (r : ExtentRec) (nr : NodeRec), Taken s p 1 f (legalClaim f) →
    ClaimPasses s f r nr → (s.xl (extentOf f)).queue = [] →
    (claimMode f = .shared → s.summary (extentOf f) ≠ .sole) →
    (claimMode f = .sole → s.summary (extentOf f) = .idle) →
    (∀ slot c, s.lowestFree = some slot → c = min (claimClass f) (min r.ceiling nr.ceiling) →
      ∃ t, exec (.claim p f) s = .next t
        ∧ Replied s t p { plainReply 1 f .granted with
            handle := some ⟨slot, (s.loan slot).issue⟩, extent := extentOf f, argA := c, units := s.units c
            generation := (s.pair (extentOf f)).gen, torn := (s.pair (extentOf f)).torn }
        ∧ OnlyChanges [.ports, .roster, .loans] s t
        ∧ (∀ n, t.loan n = if n = slot then
              ⟨(s.loan slot).issue, .held, f.node.toNat, extentOf f, claimMode f, c, s.units c, 0, false, 0, none, none⟩
            else s.loan n)
        ∧ t.loans.extents = s.loans.extents ∧ t.loans.tableWait = s.loans.tableWait
        ∧ ∀ n, t.node n = if n = f.node.toNat then
              (s.nodeAfter p f n).map (fun x => { x with held := x.held + 1 })
            else s.node n)
    ∧ (s.lowestFree = none →
      ∃ t, exec (.claim p f) s = .next t ∧ Ready.at t p (plainReply 1 f .tableFull)
        ∧ Recorded s t .tableFull ⟨f.node.toNat, extentOf f, 0⟩ ∧ SenderAdmitted s t p f
        ∧ OnlyChanges [.ports, .roster, .events] s t))
  ∧ ∀ (s : State) (p : PortId) (f : Frame) (r : ExtentRec) (nr : NodeRec), Taken s p 1 f (legalClaim f) →
    ClaimPasses s f r nr →
    ((s.xl (extentOf f)).queue ≠ [] ∨ claimMode f = .shared ∧ s.summary (extentOf f) = .sole
      ∨ claimMode f = .sole ∧ s.summary (extentOf f) ≠ .idle) →
    (f.argB.toNat = 0 → ∃ t, exec (.claim p f) s = .next t ∧ Done s t p f (plainReply 1 f .busy) [])
    ∧ (f.argB.toNat ≠ 0 → 1024 ≤ s.poolUsed →
      ∃ t, exec (.claim p f) s = .next t ∧ Ready.at t p (plainReply 1 f .poolFull)
        ∧ Recorded s t .tableFull ⟨f.node.toNat, extentOf f, 0⟩ ∧ SenderAdmitted s t p f
        ∧ OnlyChanges [.ports, .roster, .events] s t)
    ∧ (f.argB.toNat ≠ 0 → s.poolUsed < 1024 →
      ∃ t, exec (.claim p f) s = .next t ∧ Unanswered s t p ∧ OnlyChanges [.ports, .roster, .loans] s t
        ∧ (∀ e, t.xl e = if e = extentOf f then
              { s.xl e with queue := (s.xl e).queue ++
                [⟨s.reqOf p 1 f, (claimMode f).entryKind, claimClass f, f.argB.toNat⟩] }
            else s.xl e)
        ∧ t.loans.table = s.loans.table ∧ t.loans.tableWait = s.loans.tableWait
        ∧ ∀ n, t.node n = if n = f.node.toNat then
              (s.nodeAfter p f n).map (fun x => { x with waiting := x.waiting + 1 })
            else s.node n)

/-- A SOLE claim of the holder of a HELD SHARED loan on the extent is an upgrade: CONFLICT with one pending; converted
at once where its loan is the one loan, whatever waits; else BUSY with wait limit 0; else an UPGRADE entry at the head of
the queue, the loan UPGRADING. -/
def Obligations.UpgradeClaim : Prop :=
  ∀ (s : State) (p : PortId) (f : Frame) (r : ExtentRec) (nr : NodeRec) (slot : Nat) (l : LoanRec),
    s.tables → Taken s p 1 f (legalClaim f) → claimMode f = .sole →
    s.node f.node.toNat = some nr → nr.write = true → s.extent (extentOf f) = some r →
    s.fenceAnswer .soleClaim r.bay r.base (2 ^ r.k) = .pass →
    (∃ pol, s.effective r = .lent pol ∧ pol.allows .sole = true) → (s.xl (extentOf f)).drainMark = false →
    (∀ c ∈ (s.xl (extentOf f)).queue, c.req.node ≠ f.node.toNat) →
    s.ownLoan f.node.toNat (extentOf f) = some (slot, l) → l.state = .held → l.mode = .shared →
    (∀ h, s.pendingUpgrade (extentOf f) = some h →
      ∃ t, exec (.claim p f) s = .next t ∧ Done s t p f (plainReply 1 f .conflict) [])
    ∧ (s.pendingUpgrade (extentOf f) = none →
      (s.loansOn (extentOf f) = [(slot, l)] →
        ∃ t, exec (.claim p f) s = .next t
          ∧ Done s t p f { plainReply 1 f .granted with
              handle := some ⟨slot, l.issue⟩, extent := extentOf f, argA := l.cls, units := s.units l.cls
              generation := (s.pair (extentOf f)).gen, torn := (s.pair (extentOf f)).torn } [.loans]
          ∧ (∀ n, t.loan n = if n = slot then { l with mode := .sole, remaining := s.units l.cls } else s.loan n)
          ∧ t.loans.extents = s.loans.extents
          ∧ t.loans.tableWait = s.loans.tableWait.filter (fun x => decide (x ≠ extentOf f)))
      ∧ (s.loansOn (extentOf f) ≠ [(slot, l)] →
        (f.argB.toNat = 0 → ∃ t, exec (.claim p f) s = .next t ∧ Done s t p f (plainReply 1 f .busy) [])
        ∧ (f.argB.toNat ≠ 0 → 1024 ≤ s.poolUsed →
          ∃ t, exec (.claim p f) s = .next t ∧ Ready.at t p (plainReply 1 f .poolFull)
            ∧ Recorded s t .tableFull ⟨f.node.toNat, extentOf f, 0⟩ ∧ SenderAdmitted s t p f
            ∧ OnlyChanges [.ports, .roster, .events] s t)
        ∧ (f.argB.toNat ≠ 0 → s.poolUsed < 1024 →
          ∃ t, exec (.claim p f) s = .next t ∧ Unanswered s t p ∧ SenderAdmitted s t p f
            ∧ OnlyChanges [.ports, .roster, .loans] s t
            ∧ (∀ n, t.loan n = if n = slot then { l with state := .upgrading } else s.loan n)
            ∧ (∀ e, t.xl e = if e = extentOf f then
                  { s.xl e with queue :=
                    ⟨s.reqOf p 1 f, .upgrade ⟨slot, l.issue⟩, claimClass f, f.argB.toNat⟩ :: (s.xl e).queue }
                else s.xl e))))

/-- The handle test and the CLOSING loan: RENEW, DOWNGRADE, RELEASE, READ and WRITE on a handle that names no loan of the
sender are refused STALE_LOAN, and the first three on a CLOSING loan LOAN_ENDED; nothing else changes. -/
def Obligations.HandleTests : Prop :=
  ∀ (s : State) (p : PortId) (f : Frame),
    (¬ s.heldBy (handleOf f) f.node.toNat →
      (Taken s p 2 f (legalByHandle f) →
        ∃ t, exec (.renew p f) s = .next t ∧ Done s t p f (plainReply 2 f .staleLoan) [])
      ∧ (Taken s p 3 f (legalByHandle f) →
        ∃ t, exec (.downgrade p f) s = .next t ∧ Done s t p f (plainReply 3 f .staleLoan) [])
      ∧ (Taken s p 4 f (legalByHandle f) →
        ∃ t, exec (.release p f) s = .next t ∧ Done s t p f (plainReply 4 f .staleLoan) [])
      ∧ (Taken s p 5 f (legalRead f) →
        ∃ t, exec (.read p f) s = .next t ∧ Done s t p f (plainReply 5 f .staleLoan) [])
      ∧ (Taken s p 6 f (legalWrite f) →
        ∃ t, exec (.write p f) s = .next t ∧ Done s t p f (plainReply 6 f .staleLoan) []))
    ∧ (s.heldBy (handleOf f) f.node.toNat → (s.loan (slotOf f)).state = .closing →
      (Taken s p 2 f (legalByHandle f) →
        ∃ t, exec (.renew p f) s = .next t ∧ Done s t p f (plainReply 2 f .loanEnded) [])
      ∧ (Taken s p 3 f (legalByHandle f) →
        ∃ t, exec (.downgrade p f) s = .next t ∧ Done s t p f (plainReply 3 f .loanEnded) [])
      ∧ (Taken s p 4 f (legalByHandle f) →
        ∃ t, exec (.release p f) s = .next t ∧ Done s t p f (plainReply 4 f .loanEnded) []))

/-- RENEW sets the loan's remaining to the current units of its class, which the OK carries; nothing else of the loan, and
no other loan, changes. DOWNGRADE: NOT_PERMITTED on a SHARED loan and BUSY with transfers outstanding; else the loan is
SHARED with its class and remaining, the generation is stepped if it wrote and the torn mark is set exactly if it is
doubtful; a step is told to the extent's watchers, with reason COMMIT or TORN by the mark, before the reply; and OK
carries the pair. Where a SHARED or SOLE claim stands at the head of the queue, the downgrade is GRANT_FROM_QUEUE on that
state, and OK comes last (the model's choice, assumption 38). -/
def Obligations.RenewAndDowngrade : Prop :=
  (∀ (s : State) (p : PortId) (f : Frame), Taken s p 2 f (legalByHandle f) →
     s.heldBy (handleOf f) f.node.toNat → (s.loan (slotOf f)).state ≠ .closing →
     ∃ t, exec (.renew p f) s = .next t
       ∧ Done s t p f { plainReply 2 f .ok with units := s.units (s.loan (slotOf f)).cls } [.loans]
       ∧ (∀ n, t.loan n = if n = slotOf f then
             { s.loan n with remaining := s.units (s.loan n).cls } else s.loan n)
       ∧ t.loans.extents = s.loans.extents ∧ t.loans.tableWait = s.loans.tableWait)
  ∧ ∀ (s : State) (p : PortId) (f : Frame) (l : LoanRec) (v : Pair), Taken s p 3 f (legalByHandle f) →
      s.heldBy (handleOf f) f.node.toNat → l = s.loan (slotOf f) → l.state ≠ .closing → ∀ (a : State) (ok : OutFrame),
      a = s.admitted p 3 f → ok = { plainReply 3 f .ok with generation := v.gen, torn := v.torn } →
      (l.mode = .shared →
        ∃ t, exec (.downgrade p f) s = .next t ∧ Done s t p f (plainReply 3 f .notPermitted) [])
      ∧ (l.mode = .sole → l.outstanding ≠ 0 →
        ∃ t, exec (.downgrade p f) s = .next t ∧ Done s t p f (plainReply 3 f .busy) [])
      ∧ (l.mode = .sole → l.outstanding = 0 →
        v = ⟨if 0 < l.writes then (s.pair l.extent).gen + 1 else (s.pair l.extent).gen, l.doubtful⟩ →
        ((s.xl l.extent).queue = [] →
        ∃ t, exec (.downgrade p f) s = .next t ∧ Ready.at t p ok
          ∧ SenderAdmitted s t p f
          ∧ (0 < l.writes → ChangeTold a t [l.extent] (fun _ => v) (loanReason v.torn)
              ∧ ChangeBefore a t [l.extent] (fun _ => v) (loanReason v.torn) p (fun x => x = ⟨ok, true⟩))
          ∧ OnlyChanges [.ports, .roster, .map, .loans, .watches, .events, .choices] s t
          ∧ (∀ n, t.loan n = if n = slotOf f then
                { l with mode := .shared, writes := 0, doubtful := false } else s.loan n)
          ∧ t.loans.extents = s.loans.extents
          ∧ t.map.records = s.map.records ∧ (∀ e, t.pair e = if e = l.extent then v else s.pair e)
          ∧ WatchesFired s t l.extent (decide (0 < l.writes))
          ∧ (l.doubtful = true → Recorded s t .torn ⟨l.extent, 0, v.gen.toNat⟩))
        ∧ ∀ (e : Fin 4096) c rest, e.val = l.extent → (s.xl e).queue = c :: rest → (c.kind = .shared ∨ c.kind = .sole) →
          ∃ u w, exec (.grantFromQueue e) u = .next w ∧ exec (.downgrade p f) s = .next (w.sent p ok)
            ∧ SenderAdmitted s u p f ∧ OnlyChanges [.ports, .roster, .map, .loans, .watches, .events, .choices] s u
            ∧ (∀ n, u.loan n = if n = slotOf f then
                  { l with mode := .shared, writes := 0, doubtful := false } else s.loan n)
            ∧ u.loans.extents = s.loans.extents ∧ u.loans.tableWait = s.loans.tableWait
            ∧ u.map.records = s.map.records ∧ (∀ x, u.pair x = if x = l.extent then v else s.pair x)
            ∧ WatchesFired s u l.extent (decide (0 < l.writes))
            ∧ (0 < l.writes → ChangeTold a u [l.extent] (fun _ => v) (loanReason v.torn))
            ∧ (l.doubtful = true → Recorded s u .torn ⟨l.extent, 0, v.gen.toNat⟩))

/-- RELEASE: with nothing outstanding the loan is freed at once: a SOLE loan's publication is told to the extent's
watchers before the reply, an UPGRADING loan's entry, at the head of the queue, is answered LOAN_ENDED, and OK follows the
loan's end and the service of the queues with the pair after it (before the tests of the end: assumptions 7 and 40).
Where nothing else waits, that is all; with a SHARED or SOLE claim left at the head, it is GRANT_FROM_QUEUE's doing before
OK. With transfers outstanding the loan is CLOSING with cause RELEASED and owes its reply, its UPGRADE entry answered
LOAN_ENDED; what is left of the queue is then re-evaluated (the model's reading, assumption 15). -/
def Obligations.Release : Prop :=
  ∀ (s : State) (p : PortId) (f : Frame) (l : LoanRec) (a : State) (gone left : List ClaimEntry),
    Taken s p 4 f (legalByHandle f) →
    s.heldBy (handleOf f) f.node.toNat → l = s.loan (slotOf f) → l.releaseOwed = none → a = s.admitted p 4 f →
    (s.xl l.extent).queue = gone ++ left →
    (l.state = .held ∧ gone = [] ∨ l.state = .upgrading ∧ ∃ c, gone = [c] ∧ c.kind = .upgrade (handleOf f)) →
    (l.outstanding = 0 → ∃ (u : State) (ok : OutFrame), LoanFreed s u (slotOf f) l.doubtful
        ∧ ok = { plainReply 4 f .ok with generation := (u.pair l.extent).gen, torn := (u.pair l.extent).torn }
        ∧ OnlyChanges [.ports, .roster, .map, .loans, .watches, .events, .choices] s u
        ∧ (∀ e, u.xl e = if e = l.extent then { s.xl e with queue := left } else s.xl e)
        ∧ (gone = [] ∨ s.loans.tableWait = [] → u.loans.tableWait = s.loans.tableWait)
        ∧ (gone = [] → u.loans.extents = s.loans.extents) ∧ u.map.records = s.map.records
        ∧ (∀ c ∈ gone, Answered s u c.req .loanEnded)
        ∧ WatchesFired s u l.extent (decide (l.mode = .sole) && decide (0 < l.writes))
        ∧ (l.mode = .sole → 0 < l.writes →
            ChangeTold a u [l.extent] u.pair (loanReason l.doubtful)
            ∧ ChangeBefore a (u.sent p ok) [l.extent] u.pair (loanReason l.doubtful) p (fun x => x = ⟨ok, true⟩))
        ∧ (l.mode = .sole → l.doubtful = true → Recorded s u .torn ⟨l.extent, 0, (u.pair l.extent).gen.toNat⟩)
        ∧ RosterAfter a u (fun q => ∃ c ∈ gone, q = c.req)
            (fun n r => { r with held := if n = f.node.toNat ∧ n ≠ 0 then r.held - 1 else r.held })
        ∧ exec (.release p f) s
            = .next (afterEnd Tests.all l.extent ((serveTableWait (reevaluate l.extent u)).sent p ok))
        ∧ (left = [] → s.loans.tableWait = [] → s.loader.state ≠ .draining →
            (∀ r, s.extent l.extent = some r → (s.bay r.bay).state ≠ .servicePending) →
            exec (.release p f) s = .next (u.sent p ok))
        ∧ ∀ (e : Fin 4096) c rest, e.val = l.extent → left = c :: rest → (c.kind = .shared ∨ c.kind = .sole) →
            s.loans.tableWait = [] → (s.loader.state ≠ .draining ∨ l.extent ∉ s.loader.affected) →
            (∀ r, s.extent l.extent = some r → (s.bay r.bay).state ≠ .servicePending) →
            ∃ w, exec (.grantFromQueue e) u = .next w ∧ exec (.release p f) s = .next (w.sent p ok))
    ∧ (l.outstanding ≠ 0 → ∃ u, OnlyChanges [.ports, .roster, .loans] s u
        ∧ (∀ n, u.loan n = if n = slotOf f then
              { l with state := .closing, cause := some .released, releaseOwed := some (s.reqOf p 4 f) }
            else s.loan n)
        ∧ (∀ e, u.xl e = if e = l.extent then { s.xl e with queue := left } else s.xl e)
        ∧ (gone = [] ∨ s.loans.tableWait = [] → u.loans.tableWait = s.loans.tableWait)
        ∧ (∀ c ∈ gone, Answered s u c.req .loanEnded)
        ∧ RosterAfter a u (fun q => ∃ c ∈ gone, q = c.req) (fun _ r => r)
        ∧ (gone = [] → exec (.release p f) s = .next u ∧ Unanswered s u p ∧ SenderAdmitted s u p f
            ∧ u.loans.extents = s.loans.extents)
        ∧ (gone ≠ [] → exec (.release p f) s = .next (reevaluate l.extent u)
            ∧ (left = [] → s.loans.tableWait = [] → exec (.release p f) s = .next u)
            ∧ ∀ (e : Fin 4096) c rest, e.val = l.extent → left = c :: rest → (c.kind = .shared ∨ c.kind = .sole) →
                exec (.release p f) s = exec (.grantFromQueue e) u))

/-- REVOKE LOAN. A handle that names no loan is refused STALE_LOAN. Else the loan's queued transfers are answered CANCELLED, an
UPGRADE entry of it LOAN_ENDED, and it becomes CLOSING with cause REVOKED, reason MANAGEMENT, where a transfer of it is
in flight (or, already CLOSING, where more is outstanding); otherwise it is freed, a SOLE loan's extent is marked torn,
with a CHANGE notice of reason TORN where the loan had writes, and a release reply owed is answered LOAN_ENDED. Its holder is sent a REVOKED notice, and OK goes out in the same step.
(Said where no other claim waits on what is freed or re-evaluated and no entry or drain test follows. The order of those
tests and the notice, assumption 35, is not stated; the re-evaluation for a CLOSING loan's UPGRADE entry: assumption
15, and its place among the steps, assumption 42, is not stated.) -/
def Obligations.RevokeLoan : Prop :=
  ∀ (s : State) (p : PortId) (f : Frame) (l : LoanRec), s.oneAuthority → Taken s p 32 f (legalByHandle f) →
    l = s.loan (slotOf f) →
    (l.state = .free ∨ l.issue ≠ (handleOf f).issue →
      ∃ t, exec (.revokeLoan p f) s = .next t ∧ Done s t p f (plainReply 32 f .staleLoan) [])
    ∧ (l.state ≠ .free → l.issue = (handleOf f).issue →
      (l.state = .upgrading →
        (∃ c, (s.xl l.extent).queue = [c] ∧ c.kind = .upgrade (handleOf f)) ∧ s.loans.tableWait = []) →
      (s.keepsRevoked (slotOf f) = false →
        (l.state ≠ .upgrading → (s.xl l.extent).queue = []) ∧ s.loans.tableWait = [] ∧ s.loader.state ≠ .draining
          ∧ ∀ r, s.extent l.extent = some r → (s.bay r.bay).state ≠ .servicePending) →
      ∃ t, exec (.revokeLoan p f) s = .next t ∧ Ready.at t p (plainReply 32 f .ok)
        ∧ (∀ n, t.loan n = if n = slotOf f then s.afterRevoke .management n else s.loan n)
        ∧ (∀ e, t.xl e = if e = l.extent ∧ l.state = .upgrading then { s.xl e with queue := [] } else s.xl e)
        ∧ (l.state ≠ .upgrading → t.loans.extents = s.loans.extents) ∧ t.loans.tableWait = s.loans.tableWait
        ∧ (∀ b, t.bay b = if b = s.bayOf l.extent then { s.bay b with
              queue := (s.bay b).queue.filter (fun x => decide (x.handle ≠ some (handleOf f))) } else s.bay b)
        ∧ (∀ x ∈ s.queuedOf (slotOf f), Answered s t x.req .cancelled)
        ∧ (l.state = .upgrading → ∀ c ∈ (s.xl l.extent).queue, Answered s t c.req .loanEnded)
        ∧ (if s.keepsRevoked (slotOf f) then
            OnlyChanges [.ports, .roster, .loans, .bays, .events] s t
          else
            OnlyChanges [.ports, .roster, .map, .loans, .bays, .watches, .events, .choices] s t
            ∧ t.map.records = s.map.records
            ∧ (∀ e, t.pair e = if e = l.extent ∧ l.mode = .sole then
                  ⟨if 0 < l.writes then (s.pair e).gen + 1 else (s.pair e).gen, true⟩ else s.pair e)
            ∧ WatchesFired s t l.extent (decide (l.mode = .sole) && decide (0 < l.writes))
            ∧ (l.mode = .sole → 0 < l.writes → ChangeTold (s.admitted p 32 f) t [l.extent] t.pair 2)
            ∧ (l.mode = .sole → Recorded s t .torn ⟨l.extent, 0, (t.pair l.extent).gen.toNat⟩)
            ∧ ∀ q, l.releaseOwed = some q → Answered s t q .loanEnded)
        ∧ RosterAfter (s.admitted p 32 f) t
            (fun q => (∃ x ∈ s.queuedOf (slotOf f), q = x.req) ∨ (∃ c ∈ (s.xl l.extent).queue, q = c.req)
              ∨ l.releaseOwed = some q)
            (fun n r => { r with
              held := if s.keepsRevoked (slotOf f) = false ∧ n = l.holder ∧ n ≠ 0 then r.held - 1 else r.held })
        ∧ ∀ r q, l.holder ≠ 0 → s.nodeAfter p f l.holder = some r → r.learned = some q → (s.port q).up = true →
            (s.port q).notices + (s.watches.filter (fun x => decide (x.2.extent = l.extent))).length + 16 < 64 →
            (⟨revokedNotice l.holder (handleOf f) l.extent .management, false⟩ : Ready) ∈ (t.port q).egress)

/-- LOAN_END: a CLOSING loan with nothing outstanding is freed, with the generation and torn mark its mode, writes,
doubt and cause give, and a release reply owed is answered OK, or LOAN_ENDED where a revocation changed the cause, behind
the CHANGE notice, of reason COMMIT or TORN, of a SOLE loan's publication. Elsewhere nothing changes. Then the extent's own queue is re-evaluated, the table-wait list is served, and the entry test
and the drain test are made where the end calls for them: each as the command of its row makes it, and nothing more
where nothing waits. Serving the list is re-evaluating its head, over and over, while a slot is FREE and the head does
not stay. (The rows as commands of their own: assumption 3; the order of the two tests is open: assumption 27; that they follow the
service of the queues: assumption 40.) -/
def Obligations.LoanEnd : Prop :=
  (∀ (s : State) (slot : Fin 8192) (l : LoanRec) (cause : EndCause), l = s.loan slot →
    (l.state ≠ .closing ∨ l.outstanding ≠ 0 → exec (.loanEnd slot) s = .next s)
    ∧ (l.state = .closing → l.outstanding = 0 → l.cause = some cause →
      ∃ u, LoanFreed s u slot (decide (cause ≠ .released) || l.doubtful)
        ∧ OnlyChanges [.ports, .roster, .map, .loans, .watches, .events, .choices] s u
        ∧ u.loans.extents = s.loans.extents ∧ u.loans.tableWait = s.loans.tableWait
        ∧ u.map.records = s.map.records
        ∧ WatchesFired s u l.extent (decide (l.mode = .sole) && decide (0 < l.writes))
        ∧ (l.mode = .sole → cause ≠ .released ∨ l.doubtful = true →
            Recorded s u .torn ⟨l.extent, 0, (u.pair l.extent).gen.toNat⟩)
        ∧ (l.mode = .sole → 0 < l.writes →
            ChangeTold s u [l.extent] u.pair (loanReason (decide (cause ≠ .released) || l.doubtful)))
        ∧ (∀ q, l.releaseOwed = some q → Answered s u q (if cause = .released then .ok else .loanEnded)
            ∧ (l.mode = .sole → 0 < l.writes → (s.port q.port).up = true → q.round = (s.port q.port).round →
                ChangeBefore s u [l.extent] u.pair (loanReason (decide (cause ≠ .released) || l.doubtful)) q.port
                  (ReplyTo q (if cause = .released then .ok else .loanEnded))))
        ∧ RosterAfter s u (fun q => l.releaseOwed = some q)
            (fun n r => { r with held := if n = l.holder ∧ n ≠ 0 then r.held - 1 else r.held })
        ∧ exec (.loanEnd slot) s = .next (afterEnd Tests.all l.extent (serveTableWait (reevaluate l.extent u)))
        ∧ (s.quiet l.extent → exec (.loanEnd slot) s = .next u)
        ∧ ((∀ r, s.extent l.extent = some r → (s.bay r.bay).state ≠ .servicePending) →
            s.loader.state ≠ .draining ∨ l.extent ∉ s.loader.affected →
            (∀ (e : Fin 4096) c rest, e.val = l.extent → (s.xl e).queue = c :: rest → s.loans.tableWait = [] →
              (c.kind = .shared ∨ c.kind = .sole → exec (.loanEnd slot) s = exec (.grantFromQueue e) u)
              ∧ (∀ h, s.tables → c.kind = .upgrade h → (∀ d ∈ rest, d.kind = .shared ∨ d.kind = .sole) →
                  exec (.loanEnd slot) s = exec (.conversion e) u))
            ∧ ∀ (w : Fin 4096) c rest, (s.xl l.extent).queue = [] → s.loans.tableWait = [w.val] → w.val ≠ l.extent →
                (s.xl w).queue = c :: rest → (c.kind = .shared ∨ c.kind = .sole) →
                exec (.loanEnd slot) s = exec (.grantFromQueue w) u)
        ∧ ((s.xl l.extent).queue = [] → s.loans.tableWait = [] →
            ∀ (r : ExtentRec) (b : BayId), s.extent l.extent = some r → b.val = r.bay →
            ((s.bay b).state ≠ .servicePending → s.loader.state = .draining → l.extent ∈ s.loader.affected →
              exec (.loanEnd slot) s = exec .swap { u with choices := u.choices + 1 })
            ∧ ((s.bay b).state = .servicePending → (s.loader.state ≠ .draining ∨ l.extent ∉ s.loader.affected) →
              exec (.loanEnd slot) s = exec (.entryIntoService b) { u with choices := u.choices + 1 })
            ∧ ((s.bay b).state = .servicePending → s.loader.state = .draining → l.extent ∈ s.loader.affected →
              (∃ v, exec .swap { u with choices := u.choices + 2 } = .next v
                ∧ exec (.loanEnd slot) s = exec (.entryIntoService b) v)
              ∨ ∃ v, exec (.entryIntoService b) { u with choices := u.choices + 2 } = .next v
                ∧ exec (.loanEnd slot) s = exec .swap v))))
  ∧ ∀ s : State,
      (s.loans.tableWait = [] ∨ s.lowestFree = none → serveTableWait s = s)
      ∧ ∀ w rest slot, s.loans.tableWait = w :: rest → s.lowestFree = some slot →
          serveTableWait s =
            if (reevaluate w s).loans.tableWait.head? = some w then reevaluate w s
            else serveTableWait (reevaluate w s)

/-- LEASE_EXPIRY of a HELD or UPGRADING loan whose remaining is 0. An UPGRADING loan's entry, at the head of the queue, is
answered LOAN_ENDED and the loan's queued transfers are answered CANCELLED; with a transfer in flight the loan is CLOSING
with cause EXPIRED, else it is freed, a SOLE loan's extent marked torn, TORN raised and its publication told with reason
TORN. The holder is sent an EXPIRED notice and the expiry's event is raised. Then what waits is served: the extent's queue
where the loan was freed or an entry left, and the table-wait list where it was freed. A loan that is not due does not
expire. (Said where no entry or drain test follows. The row as a command of its own: assumption 3. R59 part 3 names a freed
loan and an entry of part 2: that the queue is re-evaluated, and grants, where a loan left CLOSING lost its UPGRADE entry
is the model's reading, assumption 15, and that this comes last is assumption 42.) -/
def Obligations.LeaseExpiry : Prop :=
  ∀ (s : State) (slot : Fin 8192) (l : LoanRec) (h : Handle), l = s.loan slot → h = ⟨slot, l.issue⟩ →
    (l.remaining ≠ 0 ∨ l.state = .free ∨ l.state = .closing → exec (.leaseExpiry slot) s = .next s)
    ∧ (∀ (flying : Bool) (gone left : List ClaimEntry), l.remaining = 0 →
      flying = s.loanInFlight (s.bayOf l.extent) h → (s.xl l.extent).queue = gone ++ left →
      (l.state = .held ∧ gone = [] ∨ l.state = .upgrading ∧ ∃ c, gone = [c] ∧ c.kind = .upgrade h) →
      (flying = false → s.loader.state ≠ .draining
        ∧ ∀ r, s.extent l.extent = some r → (s.bay r.bay).state ≠ .servicePending) →
      ∃ u, OnlyChanges [.ports, .roster, .map, .loans, .bays, .watches, .events, .choices] s u
        ∧ (∀ n, u.loan n = if n = slot.val then
              if flying then { l with
                state := .closing, cause := some .expired, outstanding := l.outstanding - (s.queuedOf slot).length }
              else LoanRec.free (l.issue + 1)
            else s.loan n)
        ∧ (∀ e, u.xl e = if e = l.extent then { s.xl e with queue := left } else s.xl e)
        ∧ (gone = [] ∨ s.loans.tableWait = [] → u.loans.tableWait = s.loans.tableWait)
        ∧ (∀ b, u.bay b = if b = s.bayOf l.extent then { s.bay b with
              queue := (s.bay b).queue.filter (fun x => decide (x.handle ≠ some h)) } else s.bay b)
        ∧ (∀ x ∈ s.queuedOf slot, Answered s u x.req .cancelled)
        ∧ (∀ c ∈ gone, Answered s u c.req .loanEnded)
        ∧ u.map.records = s.map.records
        ∧ (∀ e, u.pair e = if e = l.extent ∧ l.mode = .sole ∧ flying = false then
              ⟨if 0 < l.writes then (s.pair e).gen + 1 else (s.pair e).gen, true⟩ else s.pair e)
        ∧ WatchesFired s u l.extent (!flying && decide (l.mode = .sole) && decide (0 < l.writes))
        ∧ (flying = false → l.mode = .sole →
            Recorded s u .torn ⟨l.extent, 0, (u.pair l.extent).gen.toNat⟩
            ∧ (0 < l.writes → ChangeTold s u [l.extent] u.pair 2))
        ∧ (flying = false → ∀ q, l.releaseOwed = some q → Answered s u q .loanEnded)
        ∧ Recorded s u (expiryKind l.cls) ⟨l.holder, l.extent, 0⟩
        ∧ (flying = true ∨ l.mode = .shared → Notified s u l.holder (expiredNotice l.holder h l.extent))
        ∧ (∀ r q, s.node l.holder = some r → r.learned = some q → (s.port q).up = true →
            (s.port q).notices + (s.watches.filter (fun x => decide (x.2.extent = l.extent))).length + 16 < 64 →
            (⟨expiredNotice l.holder h l.extent, false⟩ : Ready) ∈ (u.port q).egress)
        ∧ RosterAfter s u (fun q => (∃ x ∈ s.queuedOf slot, q = x.req) ∨ (∃ c ∈ gone, q = c.req)
              ∨ l.releaseOwed = some q)
            (fun n r => { r with held := if flying = false ∧ n = l.holder ∧ n ≠ 0 then r.held - 1 else r.held })
        ∧ (flying = true → gone = [] → exec (.leaseExpiry slot) s = .next u)
        ∧ (flying = true → gone ≠ [] → exec (.leaseExpiry slot) s = .next (reevaluate l.extent u))
        ∧ (flying = false → exec (.leaseExpiry slot) s = .next (serveTableWait (reevaluate l.extent u)))
        ∧ (left = [] → s.loans.tableWait = [] → exec (.leaseExpiry slot) s = .next u)
        ∧ ∀ (e : Fin 4096) c rest, e.val = l.extent → left = c :: rest → (c.kind = .shared ∨ c.kind = .sole) →
            s.loans.tableWait = [] → (flying = false ∨ gone ≠ []) →
            exec (.leaseExpiry slot) s = exec (.grantFromQueue e) u)
    ∧ (l.state = .held → l.remaining = 0 → s.loanInFlight (s.bayOf l.extent) h = true →
      (∀ x ∈ (s.bay (s.bayOf l.extent)).queue, x.handle ≠ some h) →
      ∃ t, exec (.leaseExpiry slot) s = .next t ∧ OnlyChanges [.ports, .loans, .events] s t
        ∧ t.loans.extents = s.loans.extents ∧ t.loans.tableWait = s.loans.tableWait)

/-- CLAIM_WAIT_TIMEOUT: the entries of the extent whose wait is 0, wherever they stand, leave the queue together and are
refused CLAIM_TIMEOUT in queue order, with the event of the first; the waiting counts fall for those that are no UPGRADE,
and an UPGRADE's loan is HELD again. Then the queue is re-evaluated once: as GRANT_FROM_QUEUE with a SHARED or SOLE entry
left at its head, as CONVERSION with an UPGRADE there, and with none left the extent is off the table-wait list. Where no
wait is 0 nothing changes. (The row as a command of its own: assumption 3.) -/
def Obligations.ClaimWaitTimeout : Prop :=
  ∀ (s : State) (e : Fin 4096),
    ((∀ c ∈ (s.xl e).queue, c.wait ≠ 0) → exec (.claimWaitTimeout e) s = .next s)
    ∧ ∀ (first : ClaimEntry) (more rest : List ClaimEntry),
        (s.xl e).queue.filter (fun c => decide (c.wait = 0)) = first :: more →
        rest = (s.xl e).queue.filter (fun c => decide (c.wait ≠ 0)) →
        ∃ u, OnlyChanges [.ports, .roster, .loans, .events] s u
          ∧ (∀ c ∈ first :: more, Answered s u c.req .claimTimeout)
          ∧ (∀ before c between d after, first :: more = before ++ [c] ++ between ++ [d] ++ after →
              RepliedInOrder s u c.req .claimTimeout d.req .claimTimeout)
          ∧ Recorded s u .claimTimeout ⟨first.req.node, e, 0⟩
          ∧ (∀ x, u.xl x = if x = e.val then { s.xl x with queue := rest } else s.xl x)
          ∧ u.loans.tableWait = s.loans.tableWait
          ∧ (∀ n, (s.loan n).state = .upgrading → (∃ c ∈ first :: more, ∃ h, c.kind = .upgrade h ∧ h.slot = n) →
              u.loan n = { s.loan n with state := .held })
          ∧ (∀ n, (s.loan n).state ≠ .upgrading ∨ (∀ c ∈ first :: more, ∀ h, c.kind = .upgrade h → h.slot ≠ n) →
              u.loan n = s.loan n)
          ∧ RosterAfter s u (fun q => ∃ c ∈ first :: more, q = c.req) (fun n r => { r with
              waiting := r.waiting - ((first :: more).filter (fun c =>
                decide (c.req.node = n) && decide (c.kind = .shared ∨ c.kind = .sole))).length })
          ∧ exec (.claimWaitTimeout e) s = .next (reevaluate e u)
          ∧ (rest = [] → ∃ t, exec (.claimWaitTimeout e) s = .next t ∧ OnlyChanges [.loans] u t
              ∧ t.loans.table = u.loans.table ∧ t.loans.extents = u.loans.extents
              ∧ t.loans.tableWait = s.loans.tableWait.filter (fun x => decide (x ≠ e.val)))
          ∧ ∀ c behind, rest = c :: behind →
              (c.kind = .shared ∨ c.kind = .sole → exec (.claimWaitTimeout e) s = exec (.grantFromQueue e) u)
              ∧ ∀ h, s.tables → c.kind = .upgrade h → (∀ d ∈ behind, d.kind = .shared ∨ d.kind = .sole) →
                  exec (.claimWaitTimeout e) s = exec (.conversion e) u

/-- GRANT_FROM_QUEUE with a SOLE or SHARED entry at the head that the summary allows, and nothing it could grant behind
it: nothing, a SOLE entry, or behind a SOLE entry a SHARED one. The lowest FREE slot takes the record of R26, the entry
leaves the queue, its node moves one from waiting to held, GRANTED with the loan is its reply, and the extent is off the
table-wait list. An UPGRADE at the head, or an empty queue, is not this command's. CONVERSION: an UPGRADE at the head
whose loan is the one loan on the extent converts: the loan is SOLE and HELD with its class's current units, the entry
leaves the queue, GRANTED with the loan is its reply, no count of a node changes, and the extent is off the list. With
other loans on the extent the entry stays, and the extent is off the list all the same. Another head, or an empty queue, is
not this command's. (The rows as commands of their own: assumption 3.) -/
def Obligations.GrantsAndConversions : Prop :=
  (∀ (s : State) (e : Fin 4096),
     ((s.xl e).queue = [] ∨ (∃ c rest h, (s.xl e).queue = c :: rest ∧ c.kind = .upgrade h) →
       exec (.grantFromQueue e) s = .next s)
     ∧ ∀ (c : ClaimEntry) (rest : List ClaimEntry) (mode : Mode) (slot : Nat) (r : ExtentRec) (nr : NodeRec) (k : Nat),
         (s.xl e).queue = c :: rest → c.kind = mode.entryKind → (s.xl e).drainMark = false →
         (mode = .sole → s.summary e = .idle) → (mode = .shared → s.summary e ≠ .sole) →
         s.lowestFree = some slot → s.extent e = some r → s.node c.req.node = some nr →
         (rest = [] ∨ ∃ d more, rest = d :: more ∧ (d.kind = .sole ∨ mode = .sole ∧ d.kind = .shared)) →
         k = min c.cls (min r.ceiling nr.ceiling) →
         ∃ t, exec (.grantFromQueue e) s = .next t ∧ Answered s t c.req .granted
           ∧ (c.req.code = 1 → AnsweredWith t c.req ⟨false, 1, .granted, c.req.node, c.req.tag, (s.pair e).torn,
               c.req.passed, some ⟨slot, (s.loan slot).issue⟩, e, k, 0, 0, (s.pair e).gen, s.units k, []⟩)
           ∧ OnlyChanges [.ports, .roster, .loans] s t
           ∧ (∀ x, t.xl x = if x = e.val then { s.xl x with queue := rest } else s.xl x)
           ∧ t.loans.tableWait = s.loans.tableWait.filter (fun x => decide (x ≠ e.val))
           ∧ (∀ n, t.loan n = if n = slot then
                 ⟨(s.loan slot).issue, .held, c.req.node, e, mode, k, s.units k, 0, false, 0, none, none⟩
               else s.loan n)
           ∧ RosterAfter s t (fun q => q = c.req) (fun n x =>
               if n = c.req.node then { x with waiting := x.waiting - 1, held := x.held + 1 } else x))
  ∧ (∀ (s : State) (e : Fin 4096),
      ((s.xl e).queue = [] ∨ ∃ c rest, (s.xl e).queue = c :: rest ∧ (c.kind = .shared ∨ c.kind = .sole)) →
      exec (.conversion e) s = .next s)
  ∧ ∀ (s : State) (e : Fin 4096) (c : ClaimEntry) (rest : List ClaimEntry) (h : Handle), s.tables →
      (s.xl e).queue = c :: rest → c.kind = .upgrade h → (s.xl e).drainMark = false →
      (∀ l, s.loansOn e = [(h.slot, l)] → l.issue = h.issue →
        ∃ t, exec (.conversion e) s = .next t ∧ Answered s t c.req .granted
          ∧ (c.req.code = 1 → AnsweredWith t c.req ⟨false, 1, .granted, c.req.node, c.req.tag, (s.pair e).torn,
              c.req.passed, some h, e, l.cls, 0, 0, (s.pair e).gen, s.units l.cls, []⟩)
          ∧ OnlyChanges [.ports, .roster, .loans] s t
          ∧ (∀ x, t.xl x = if x = e.val then { s.xl x with queue := rest } else s.xl x)
          ∧ t.loans.tableWait = s.loans.tableWait.filter (fun x => decide (x ≠ e.val))
          ∧ (∀ n, t.loan n = if n = h.slot then
                { l with state := .held, mode := .sole, remaining := s.units l.cls } else s.loan n)
          ∧ t.summary e = .sole
          ∧ RosterAfter s t (fun q => q = c.req) (fun _ r => r))
      ∧ ((∀ l, s.loansOn e = [(h.slot, l)] → l.issue ≠ h.issue) →
        ∃ t, exec (.conversion e) s = .next t ∧ OnlyChanges [.loans] s t
          ∧ t.loans.table = s.loans.table ∧ t.loans.extents = s.loans.extents
          ∧ t.loans.tableWait = s.loans.tableWait.filter (fun x => decide (x ≠ e.val)))

/-- GRANT_FROM_QUEUE on a queue that begins with SHARED entries, all there are or as many as stand before the first SOLE
one, where no SOLE loan stands: the first of these, as many as slots are FREE, leave the queue in order. Each is now a HELD
SHARED loan of R26 in the lowest FREE slot left, at the lowest of the three classes, and is answered GRANTED with that
loan; its node's waiting count has fallen and its held count risen by one. Nothing else changes, but that a batch cut short
puts the extent on the table-wait list and sets TABLE_FULL with the first entry left, and a batch served whole takes it off
the list. (The row as a command of its own: assumption 3.) -/
def Obligations.BatchGranted : Prop :=
  ∀ (s : State) (e : Fin 4096) (batch stop : List ClaimEntry), (s.xl e).queue = batch ++ stop → batch ≠ [] →
    (∀ c ∈ batch, c.kind = .shared) → (stop = [] ∨ ∃ d more, stop = d :: more ∧ d.kind = .sole) →
    (s.xl e).drainMark = false → s.summary e ≠ .sole →
    ∃ t, exec (.grantFromQueue e) s = .next t ∧ t.summary e ≠ .sole
      ∧ ∃ (granted left : List ClaimEntry) (slots : List Nat), batch = granted ++ left
        ∧ slots.length = granted.length
        ∧ (∀ n ∈ slots, n < 8192 ∧ (s.loan n).state = .free)
        ∧ slots.Pairwise (· < ·)
        ∧ (∀ n, n < 8192 → (s.loan n).state = .free → n ∉ slots → ∀ m ∈ slots, m < n)
        ∧ (∀ c slot k, (c, slot) ∈ granted.zip slots →
            k = min c.cls (min ((s.extent e).elim 0 (·.ceiling)) ((s.node c.req.node).elim 0 (·.ceiling))) →
            t.loan slot = ⟨(s.loan slot).issue, .held, c.req.node, e, .shared, k, s.units k, 0, false, 0, none, none⟩
            ∧ Answered s t c.req .granted
            ∧ (c.req.code = 1 → AnsweredWith t c.req ⟨false, 1, .granted, c.req.node, c.req.tag, (s.pair e).torn,
                c.req.passed, some ⟨slot, (s.loan slot).issue⟩, e, k, 0, 0, (s.pair e).gen, s.units k, []⟩))
        ∧ (∀ n, n ∉ slots → t.loan n = s.loan n)
        ∧ (∀ x, t.xl x = if x = e.val then { s.xl x with queue := left ++ stop } else s.xl x)
        ∧ RosterAfter s t (fun q => ∃ c ∈ granted, q = c.req) (fun n r => { r with
            waiting := r.waiting - (granted.filter (fun c => decide (c.req.node = n))).length
            held := r.held + (granted.filter (fun c => decide (c.req.node = n))).length })
        ∧ (left = [] → t.loans.tableWait = s.loans.tableWait.filter (fun x => decide (x ≠ e.val))
            ∧ OnlyChanges [.ports, .roster, .loans] s t)
        ∧ ∀ d more, left = d :: more → t.lowestFree = none
            ∧ t.loans.tableWait = (if e.val ∈ s.loans.tableWait then s.loans.tableWait
                else s.loans.tableWait ++ [e.val])
            ∧ Recorded s t .tableFull ⟨d.req.node, e, 0⟩ ∧ OnlyChanges [.ports, .roster, .loans, .events] s t

/-! ### Transfers -/

/-- READ and WRITE on a live loan of the sender, within the extent, past the fences, at a bay that is READY or
SERVICE_PENDING with fewer than 16 queued: the transfer joins its bay's queue, the loan's outstanding count rises, and no
reply is made yet. OPEN READ on a LIBRARY or ASSET_OPEN extent, unmarked, within range, past the fences, its bay READY with
fewer than 16 queued: the read joins the queue with no handle and the extent's open-read count rises. -/
def Obligations.TransfersQueued : Prop :=
  (∀ (s : State) (p : PortId) (f : Frame) (l : LoanRec) (r : ExtentRec), s.heldBy (handleOf f) f.node.toNat →
     l = s.loan (slotOf f) → (l.state = .held ∨ l.state = .upgrading) → s.extent l.extent = some r →
     offsetOf f + argBOf f ≤ 2 ^ r.k → ((s.bay r.bay).state = .ready ∨ (s.bay r.bay).state = .servicePending) →
     (s.bay r.bay).queue.length < 16 →
     (Taken s p 5 f (legalRead f) → s.fenceAnswer .read r.bay (r.base + offsetOf f) (argBOf f) = .pass →
       ∃ t, exec (.read p f) s = .next t ∧ Unanswered s t p ∧ SenderAdmitted s t p f
         ∧ OnlyChanges [.ports, .roster, .loans, .bays] s t
         ∧ BayJoined s t r.bay ⟨.read, s.reqOf p 5 f, some (handleOf f), some l.extent, r.base + offsetOf f,
             argBOf f, []⟩
         ∧ (∀ n, t.loan n = if n = slotOf f then { l with outstanding := l.outstanding + 1 } else s.loan n)
         ∧ t.loans.extents = s.loans.extents ∧ t.loans.tableWait = s.loans.tableWait)
     ∧ (Taken s p 6 f (legalWrite f) → l.mode = .sole →
       s.fenceAnswer .write r.bay (r.base + offsetOf f) (argBOf f) = .pass →
       ∃ t, exec (.write p f) s = .next t ∧ Unanswered s t p ∧ SenderAdmitted s t p f
         ∧ OnlyChanges [.ports, .roster, .loans, .bays] s t
         ∧ BayJoined s t r.bay ⟨.write, s.reqOf p 6 f, some (handleOf f), some l.extent, r.base + offsetOf f,
             argBOf f, f.body⟩
         ∧ (∀ n, t.loan n = if n = slotOf f then { l with outstanding := l.outstanding + 1 } else s.loan n)
         ∧ t.loans.extents = s.loans.extents ∧ t.loans.tableWait = s.loans.tableWait))
  ∧ ∀ (s : State) (p : PortId) (f : Frame) (r : ExtentRec), Taken s p 7 f (legalOpenRead f) →
      s.extent (extentOf f) = some r → (s.effective r = .lent .library ∨ s.effective r = .lent .assetOpen) →
      (s.xl (extentOf f)).drainMark = false → offsetOf f + argBOf f ≤ 2 ^ r.k →
      s.fenceAnswer .openRead r.bay (r.base + offsetOf f) (argBOf f) = .pass → (s.bay r.bay).queue.length < 16 →
      ∃ t, exec (.openRead p f) s = .next t ∧ Unanswered s t p ∧ SenderAdmitted s t p f
        ∧ OnlyChanges [.ports, .roster, .loans, .bays] s t
        ∧ BayJoined s t r.bay ⟨.openRead, s.reqOf p 7 f, none, some (extentOf f), r.base + offsetOf f, argBOf f, []⟩
        ∧ (∀ e, t.xl e = if e = extentOf f then { s.xl e with openReads := (s.xl e).openReads + 1 } else s.xl e)
        ∧ t.loans.table = s.loans.table ∧ t.loans.tableWait = s.loans.tableWait

/-- The later checks of READ and WRITE, and those of OPEN READ. Of READ and WRITE, in order: RANGE outside the extent; past the fences, LOAN_ENDED on a CLOSING loan,
NOT_PERMITTED for a WRITE on a SHARED loan, BAY_DOWN or IN_SERVICE by the bay's state, BAY_FULL at 16 queued. Of an OPEN
READ: NO_EXTENT, the CLOSED reason or NOT_PERMITTED by the effective policy, MAP_PENDING under the drain mark, RANGE
outside the extent, and past the fences BAY_FULL. Nothing else changes. -/
def Obligations.TransferChecks : Prop :=
  (∀ (s : State) (p : PortId) (f : Frame), Taken s p 7 f (legalOpenRead f) →
    (s.extent (extentOf f) = none →
      ∃ t, exec (.openRead p f) s = .next t ∧ Done s t p f (plainReply 7 f .noExtent) [])
    ∧ ∀ r, s.extent (extentOf f) = some r →
      (∀ why, s.effective r = .closed why →
        ∃ t, exec (.openRead p f) s = .next t ∧ Done s t p f (plainReply 7 f why) [])
      ∧ ∀ pol, s.effective r = .lent pol →
        (pol ≠ .library → pol ≠ .assetOpen →
          ∃ t, exec (.openRead p f) s = .next t ∧ Done s t p f (plainReply 7 f .notPermitted) [])
        ∧ (pol = .library ∨ pol = .assetOpen →
          ((s.xl (extentOf f)).drainMark = true →
            ∃ t, exec (.openRead p f) s = .next t ∧ Done s t p f (plainReply 7 f .mapPending) [])
          ∧ ((s.xl (extentOf f)).drainMark = false →
            (2 ^ r.k < offsetOf f + argBOf f →
              ∃ t, exec (.openRead p f) s = .next t ∧ Done s t p f (plainReply 7 f .range) [])
            ∧ (offsetOf f + argBOf f ≤ 2 ^ r.k →
              s.fenceAnswer .openRead r.bay (r.base + offsetOf f) (argBOf f) = .pass →
              16 ≤ (s.bay r.bay).queue.length →
              ∃ t, exec (.openRead p f) s = .next t ∧ Done s t p f (plainReply 7 f .bayFull) []))))
  ∧ ∀ (s : State) (p : PortId) (f : Frame) (l : LoanRec) (r : ExtentRec), s.heldBy (handleOf f) f.node.toNat →
    l = s.loan (slotOf f) → s.extent l.extent = some r →
    (Taken s p 5 f (legalRead f) →
      (2 ^ r.k < offsetOf f + argBOf f →
        ∃ t, exec (.read p f) s = .next t ∧ Done s t p f (plainReply 5 f .range) [])
      ∧ (offsetOf f + argBOf f ≤ 2 ^ r.k →
        s.fenceAnswer .read r.bay (r.base + offsetOf f) (argBOf f) = .pass →
        (l.state = .closing → ∃ t, exec (.read p f) s = .next t ∧ Done s t p f (plainReply 5 f .loanEnded) [])
        ∧ (l.state ≠ .closing →
          ((s.bay r.bay).state = .absent ∨ (s.bay r.bay).state = .failed →
            ∃ t, exec (.read p f) s = .next t ∧ Done s t p f (plainReply 5 f .bayDown) [])
          ∧ ((s.bay r.bay).state = .service →
            ∃ t, exec (.read p f) s = .next t ∧ Done s t p f (plainReply 5 f .inService) [])
          ∧ ((s.bay r.bay).state = .ready ∨ (s.bay r.bay).state = .servicePending →
            16 ≤ (s.bay r.bay).queue.length →
            ∃ t, exec (.read p f) s = .next t ∧ Done s t p f (plainReply 5 f .bayFull) []))))
    ∧ (Taken s p 6 f (legalWrite f) →
      (2 ^ r.k < offsetOf f + argBOf f →
        ∃ t, exec (.write p f) s = .next t ∧ Done s t p f (plainReply 6 f .range) [])
      ∧ (offsetOf f + argBOf f ≤ 2 ^ r.k →
        s.fenceAnswer .write r.bay (r.base + offsetOf f) (argBOf f) = .pass →
        (l.state = .closing → ∃ t, exec (.write p f) s = .next t ∧ Done s t p f (plainReply 6 f .loanEnded) [])
        ∧ (l.state ≠ .closing →
          (l.mode = .shared → ∃ t, exec (.write p f) s = .next t ∧ Done s t p f (plainReply 6 f .notPermitted) [])
          ∧ (l.mode = .sole →
            ((s.bay r.bay).state = .absent ∨ (s.bay r.bay).state = .failed →
              ∃ t, exec (.write p f) s = .next t ∧ Done s t p f (plainReply 6 f .bayDown) [])
            ∧ ((s.bay r.bay).state = .service →
              ∃ t, exec (.write p f) s = .next t ∧ Done s t p f (plainReply 6 f .inService) [])
            ∧ ((s.bay r.bay).state = .ready ∨ (s.bay r.bay).state = .servicePending →
              16 ≤ (s.bay r.bay).queue.length →
              ∃ t, exec (.write p f) s = .next t ∧ Done s t p f (plainReply 6 f .bayFull) [])))))

/-! ### Watches -/

/-- WATCH: a record with the extent's current generation, ARMED unless an EXPECT generation differs; then it is FIRED and a
STALE notice goes to the node. OK carries generation and TORN. An absent extent, or a new record at 1024, is refused.
UNWATCH removes the node's record on the extent, whatever its state, and answers OK; without one it is refused
NOT_WATCHED. -/
def Obligations.WatchAndUnwatch : Prop :=
  (∀ (s : State) (p : PortId) (f : Frame), Taken s p 8 f (legalWatch f) →
     (s.extent (extentOf f) = none →
       ∃ t, exec (.watch p f) s = .next t ∧ Done s t p f (plainReply 8 f .noExtent) [])
     ∧ ∀ r, s.extent (extentOf f) = some r →
       (s.watches.look (watchKey (extentOf f) f.node.toNat) = none → 1024 ≤ s.watches.length →
         ∃ t, exec (.watch p f) s = .next t ∧ Ready.at t p (plainReply 8 f .watchFull)
           ∧ Recorded s t .watchFull ⟨f.node.toNat, extentOf f, 0⟩ ∧ SenderAdmitted s t p f
           ∧ OnlyChanges [.ports, .roster, .events] s t)
       ∧ (s.watches.look (watchKey (extentOf f) f.node.toNat) ≠ none ∨ s.watches.length < 1024 →
         (f.argA.toNat ≠ 1 ∨ f.generation = (s.pair (extentOf f)).gen →
           ∃ t, exec (.watch p f) s = .next t
             ∧ Done s t p f { plainReply 8 f .ok with
                 generation := (s.pair (extentOf f)).gen, torn := (s.pair (extentOf f)).torn } [.watches]
             ∧ ∀ k, t.watches.look k = if k = watchKey (extentOf f) f.node.toNat then
                 some ⟨f.node.toNat, extentOf f, (s.pair (extentOf f)).gen, .armed⟩ else s.watches.look k)
         ∧ (f.argA.toNat = 1 → f.generation ≠ (s.pair (extentOf f)).gen →
           ∃ t, exec (.watch p f) s = .next t
             ∧ Ready.at t p { plainReply 8 f .ok with
                 generation := (s.pair (extentOf f)).gen, torn := (s.pair (extentOf f)).torn }
             ∧ SenderAdmitted s t p f ∧ OnlyChanges [.ports, .roster, .watches, .events] s t
             ∧ (∀ k, t.watches.look k = if k = watchKey (extentOf f) f.node.toNat then
                 some ⟨f.node.toNat, extentOf f, (s.pair (extentOf f)).gen, .fired⟩ else s.watches.look k)
             ∧ ((s.port p).notices < 64 → (t.port p).egress = (s.port p).egress ++
                 [⟨{ plainReply 8 f .ok with
                     generation := (s.pair (extentOf f)).gen, torn := (s.pair (extentOf f)).torn }, true⟩,
                   ⟨changeNotice f.node.toNat (extentOf f) (s.pair (extentOf f)) .stale, false⟩])
             ∧ (64 ≤ (s.port p).notices → Recorded s t .nodeNoticeLost ⟨f.node.toNat, p.val, 0⟩))))
  ∧ ∀ (s : State) (p : PortId) (f : Frame), Taken s p 9 f (legalByExtent f) →
      (s.watches.look (watchKey (extentOf f) f.node.toNat) ≠ none →
        ∃ t, exec (.unwatch p f) s = .next t ∧ Done s t p f (plainReply 9 f .ok) [.watches]
          ∧ ∀ k, t.watches.look k =
              if k = watchKey (extentOf f) f.node.toNat then none else s.watches.look k)
      ∧ (s.watches.look (watchKey (extentOf f) f.node.toNat) = none →
        ∃ t, exec (.unwatch p f) s = .next t ∧ Done s t p f (plainReply 9 f .notWatched) [])

/-! ### Fences -/

/-- Which requests a fence matches: it is on the request's bay, at least one block of the request's range lies in the
fence's, and its kind covers the request's kind by R105's table. The enables are not asked. -/
def Obligations.FenceMatching : Prop :=
  ∀ (v : Fence) (k : FencedKind) (b first count : Nat), 1 ≤ count →
    (v.matches k b first count = true ↔
      (v.bay = b ∧ ∃ x, first ≤ x ∧ x < first + count ∧ v.base ≤ x ∧ x ≤ v.base + 2 ^ v.k - 1)
        ∧ (v.kind = .soleClaim ∧ k = .soleClaim ∨ v.kind = .write ∧ k = .write ∨ v.kind = .any))
    ∧ ∀ le ge : Bool, ({ v with localEnable := le, globalEnable := ge } : Fence).matches k b first count
        = v.matches k b first count

/-- A request of kind `k` on `count` blocks from `first` of bay `b`, of extent `e`, has been stopped by an enabled fence
(R106): every matching fence, enabled or not, takes a hit, FENCE_HIT names the lowest matching enabled one, and the
request is refused FENCED where one of them says REFUSE, or where no place of the Held List is free; else it takes the
lowest free place, with `args`, 60 s and FENCE_HOLD. -/
def FenceStopped (s t : State) (p : PortId) (code : Nat) (f : Frame) (k : FencedKind) (b first count e : Nat)
    (args : HeldArgs) : Prop :=
  SenderAdmitted s t p f
    ∧ OnlyChanges [.ports, .roster, .fences, .events] s t
    ∧ (∀ i, i < 8 → t.fence i = { s.fence i with hit := (s.fence i).hit || (s.fence i).matches k b first count })
    ∧ (∀ low, low < 8 → (s.fence low).matches k b first count = true → (s.fence low).enabled = true →
        (∀ j, j < low → (s.fence j).matches k b first count = false ∨ (s.fence j).enabled = false) →
        Recorded s t .fenceHit ⟨f.node.toNat, e, low⟩)
    ∧ ((∃ i, i < 8 ∧ (s.fence i).matches k b first count = true ∧ (s.fence i).enabled = true
          ∧ (s.fence i).action = .refuse) →
        Ready.at t p (plainReply code f .fenced) ∧ t.fences.held = s.fences.held)
    ∧ ((∀ i, i < 8 → (s.fence i).matches k b first count = true → (s.fence i).enabled = true →
          (s.fence i).action = .hold) →
        ((∀ i, i < 16 → s.fences.held.look i ≠ none) →
          Ready.at t p (plainReply code f .fenced) ∧ t.fences.held = s.fences.held)
        ∧ ∀ place, place < 16 → s.fences.held.look place = none →
            (∀ j, j < place → s.fences.held.look j ≠ none) →
            NoticesOnly (setPort p { s.port p with reservations := (s.port p).reservations + 1 } s) t
            ∧ Recorded s t .fenceHold ⟨f.node.toNat, 0, place⟩
            ∧ (∀ j, j ≠ place → t.fences.held.look j = s.fences.held.look j)
            ∧ ∃ marks, t.fences.held.look place = some ⟨s.reqOf p code f, args, 60, marks⟩
              ∧ ∀ i, i < 8 → marks.getLsbD i = ((s.fence i).matches k b first count && (s.fence i).enabled))

/-- A request that meets an enabled fence is stopped by it: a CLAIM with its extent's range, and a READ, WRITE or OPEN
READ within its extent with the blocks it names. A READ or WRITE is held with its handle's issue and its loan's extent;
its loan's state and mode, and the bay, are not asked. -/
def Obligations.FencedRequests : Prop :=
  (∀ (s : State) (p : PortId) (f : Frame) (r : ExtentRec), Taken s p 1 f (legalClaim f) →
    s.extent (extentOf f) = some r →
    (∃ i, i < 8 ∧ (s.fence i).matches (claimMode f).fencedKind r.bay r.base (2 ^ r.k) = true
      ∧ (s.fence i).enabled = true) →
    ∃ t, exec (.claim p f) s = .next t
      ∧ FenceStopped s t p 1 f (claimMode f).fencedKind r.bay r.base (2 ^ r.k) (extentOf f)
          (.claim (extentOf f) (claimMode f) (claimClass f) f.argB.toNat))
  ∧ (∀ (s : State) (p : PortId) (f : Frame) (l : LoanRec) (r : ExtentRec), s.heldBy (handleOf f) f.node.toNat →
      l = s.loan (slotOf f) → s.extent l.extent = some r → offsetOf f + argBOf f ≤ 2 ^ r.k →
      (Taken s p 5 f (legalRead f) →
        (∃ i, i < 8 ∧ (s.fence i).matches .read r.bay (r.base + offsetOf f) (argBOf f) = true
          ∧ (s.fence i).enabled = true) →
        ∃ t, exec (.read p f) s = .next t
          ∧ FenceStopped s t p 5 f .read r.bay (r.base + offsetOf f) (argBOf f) l.extent
              (.transfer false (slotOf f) l.issue l.extent (offsetOf f) (argBOf f) []))
      ∧ (Taken s p 6 f (legalWrite f) →
        (∃ i, i < 8 ∧ (s.fence i).matches .write r.bay (r.base + offsetOf f) (argBOf f) = true
          ∧ (s.fence i).enabled = true) →
        ∃ t, exec (.write p f) s = .next t
          ∧ FenceStopped s t p 6 f .write r.bay (r.base + offsetOf f) (argBOf f) l.extent
              (.transfer true (slotOf f) l.issue l.extent (offsetOf f) (argBOf f) f.body)))
  ∧ ∀ (s : State) (p : PortId) (f : Frame) (r : ExtentRec), Taken s p 7 f (legalOpenRead f) →
      s.extent (extentOf f) = some r → (s.effective r = .lent .library ∨ s.effective r = .lent .assetOpen) →
      (s.xl (extentOf f)).drainMark = false → offsetOf f + argBOf f ≤ 2 ^ r.k →
      (∃ i, i < 8 ∧ (s.fence i).matches .openRead r.bay (r.base + offsetOf f) (argBOf f) = true
        ∧ (s.fence i).enabled = true) →
      ∃ t, exec (.openRead p f) s = .next t
        ∧ FenceStopped s t p 7 f .openRead r.bay (r.base + offsetOf f) (argBOf f) (extentOf f)
            (.openRead (extentOf f) (offsetOf f) (argBOf f))

/-- SET FENCE replaces the seven fields of a fence within the limits and keeps its hit flag; outside the limits it is
refused BAD_REQUEST. CLEAR FENCE HITS clears the hit flags of its set and no other. (The item's fields are read most
significant byte first: assumption 10.) -/
def Obligations.SetFenceAndClearHits : Prop :=
  ∀ (s : State) (p : PortId) (f : Frame), s.oneAuthority →
    (Taken s p 47 f (legalSetFence f) →
      ∀ v, v = fenceOf f (s.fence f.argA.toNat).hit →
      (v.bay ≤ 23 ∧ v.k ≤ 26 ∧ v.base % 2 ^ v.k = 0 ∧ v.base + 2 ^ v.k - 1 ≤ 2 ^ 36 - 1 →
        ∃ t, exec (.setFence p f) s = .next t ∧ Done s t p f (plainReply 47 f .ok) [.fences]
          ∧ (∀ i, t.fence i = if i = f.argA.toNat then v else s.fence i) ∧ t.fences.held = s.fences.held)
      ∧ (23 < v.bay ∨ 26 < v.k ∨ v.base % 2 ^ v.k ≠ 0 ∨ 2 ^ 36 - 1 < v.base + 2 ^ v.k - 1 →
        ∃ t, exec (.setFence p f) s = .next t ∧ Done s t p f (plainReply 47 f .badRequest) []))
    ∧ (Taken s p 48 f (legalPlain f) →
      ∃ t, exec (.clearFenceHits p f) s = .next t ∧ Done s t p f (plainReply 48 f .ok) [.fences]
        ∧ (∀ i, t.fence i = { s.fence i with hit := (s.fence i).hit && !f.argA.getLsbD i })
        ∧ t.fences.held = s.fences.held)

/-- The ends of a held request. REJECT HELD answers it REJECTED and the authority OK; HOLD_TIMEOUT answers an entry at 0
FENCE_TIMEOUT; each takes the entry off the list and nothing else of the Fence Unit changes. A reject that names no such
entry is refused NOT_HELD. (HOLD_TIMEOUT as a command of its own: assumption 3; a tag above 63 is illegal: assumption
12.) -/
def Obligations.HeldRequestsEnded : Prop :=
  (∀ (s : State) (p : PortId) (f : Frame), s.oneAuthority → Taken s p 52 f (legalHeld f) →
    (∀ h, s.fences.held.look f.argA.toNat = some h → h.req.node = f.offset.toNat → h.req.tag = f.argB.toNat →
      ∃ t, exec (.rejectHeld p f) s = .next t ∧ Answered s t h.req .rejected
        ∧ Ready.at t p (plainReply 52 f .ok) ∧ NoticedOnly s t
        ∧ OnlyChanges [.ports, .roster, .fences, .events] s t
        ∧ RosterAfter (s.admitted p 52 f) t (fun q => q = h.req) (fun _ r => r)
        ∧ t.fences = { s.fences with held := s.fences.held.drop f.argA.toNat })
    ∧ ((∀ h, s.fences.held.look f.argA.toNat = some h → h.req.node ≠ f.offset.toNat ∨ h.req.tag ≠ f.argB.toNat) →
      ∃ t, exec (.rejectHeld p f) s = .next t ∧ Done s t p f (plainReply 52 f .notHeld) []))
  ∧ ∀ (s : State) (i : Fin 16),
    ((∀ h, s.fences.held.look i = some h → h.remaining ≠ 0) → exec (.holdTimeout i) s = .next s)
    ∧ ∀ h, s.fences.held.look i = some h → h.remaining = 0 →
        ∃ t, exec (.holdTimeout i) s = .next t ∧ Answered s t h.req .fenceTimeout
          ∧ OnlyChanges [.ports, .roster, .fences] s t ∧ RosterAfter s t (fun q => q = h.req) (fun _ r => r)
          ∧ t.fences = { s.fences with held := s.fences.held.drop i }

/-- A released request is answered at once with a status: beside its reply, what the blocks of `more` take and what `f'`
makes of the node records, no block changes but by the authority's admission and the entry's leaving. -/
def HeldAnswered (s t : State) (p : PortId) (f : Frame) (q : Req) (st : Status) (more : List Block)
    (f' : Nat → NodeRec → NodeRec) : Prop :=
  Answered s t q st ∧ OnlyChanges ([.ports, .roster, .fences, .events, .choices] ++ more) s t
    ∧ RosterAfter (s.admitted p 51 f) t (fun x => x = q) f'

/-- A released request is refused with a status, and no event is taken. -/
def HeldRefused (s t : State) (p : PortId) (f : Frame) (q : Req) (st : Status) : Prop :=
  HeldAnswered s t p f q st [] (fun _ r => r) ∧ NoticedOnly s t

/-- A released claim is refused with a status, and TABLE_FULL is taken (R24, R25, R32). -/
def HeldTableFull (s t : State) (p : PortId) (f : Frame) (q : Req) (st : Status) (e : Nat) : Prop :=
  HeldAnswered s t p f q st [] (fun _ r => r) ∧ Recorded s t .tableFull ⟨q.node, e, 0⟩

/-- A released request waits on, its reply not made yet: no block changes but by the authority's admission, the entry's
leaving and what the blocks of `more` take. -/
def HeldWaits (s t : State) (more : List Block) : Prop :=
  OnlyChanges ([.ports, .roster, .fences, .events, .choices] ++ more) s t ∧ NoticedOnly s t

/-- The bay steps of a released READ, WRITE or OPEN READ that refuse it (R42 steps 6 and 7, R44, R111). -/
def ReleasedAtBay (s t : State) (p : PortId) (f : Frame) (q : Req) (b : Nat) : Prop :=
  ((s.bay b).state = .absent ∨ (s.bay b).state = .failed → HeldRefused s t p f q .bayDown)
  ∧ ((s.bay b).state = .service → HeldRefused s t p f q .inService)
  ∧ ((s.bay b).state = .ready ∨ (s.bay b).state = .servicePending → 16 ≤ (s.bay b).queue.length →
    HeldRefused s t p f q .bayFull)

/-- RELEASE HELD: the entry leaves the list, the authority is answered OK, and the request resumes with the pass mark
past its fence check. A claim or an OPEN READ whose extent has gone is refused NO_EXTENT. Another claim takes up its
checks at the effective policy: it is refused by policy, write permission, drain mark, an entry of its sender's, or
quota, in that order; past them it is decided as a fresh one. With no loan of its sender's there it is granted at
once, or refused TABLE_FULL with its event, or has to wait: BUSY, POOL_FULL with its event, or an entry. With a HELD
SHARED loan of its sender's a SOLE claim is an upgrade: CONFLICT, conversion at once, BUSY, POOL_FULL, or an UPGRADE
entry; another claim of a holder's is refused DUPLICATE. A READ or WRITE is refused LOAN_ENDED where its handle, with
the issue recorded, no longer names a loan of its sender or that loan is CLOSING, and NOT_PERMITTED for a WRITE on a
SHARED loan. An OPEN READ is refused RANGE outside the extent as it stands, and MAP_PENDING in a forced drain of it. Past
these, each is refused BAY_DOWN at an ABSENT or FAILED bay, IN_SERVICE at one in SERVICE and BAY_FULL at one with 16
queued, and joins the queue of a READY or SERVICE_PENDING one with room. Of the node records, beside the admission of the
release, only the counts that the outcome names change, and the request's tag where no port can take its reply. A release
that names no such entry is refused NOT_HELD. (Assumptions 12 and 24.) -/
def Obligations.HeldRequestsReleased : Prop :=
  ∀ (s : State) (p : PortId) (f : Frame), s.oneAuthority → Taken s p 51 f (legalHeld f) →
    ((∀ h, s.fences.held.look f.argA.toNat = some h → h.req.node ≠ f.offset.toNat ∨ h.req.tag ≠ f.argB.toNat) →
      ∃ t, exec (.releaseHeld p f) s = .next t ∧ Done s t p f (plainReply 51 f .notHeld) [])
    ∧ ∀ (h : Held) (q : Req), s.fences.held.look f.argA.toNat = some h → h.req.node = f.offset.toNat →
      h.req.tag = f.argB.toNat → q = { h.req with passed := true } →
      ∃ t, exec (.releaseHeld p f) s = .next t ∧ Ready.at t p (plainReply 51 f .ok)
        ∧ t.fences = { s.fences with held := s.fences.held.drop f.argA.toNat }
        ∧ (∀ e mode cls wait, h.args = .claim e mode cls wait →
            (s.extent e = none →
              HeldRefused s t p f q .noExtent)
            ∧ ∀ r, s.extent e = some r →
              (∀ st, (s.effective r = .closed st
                  ∨ ∃ pol, s.effective r = .lent pol ∧
                    ((pol.allows mode = false ∨ mode = .sole ∧ ∀ nr, s.node q.node = some nr → nr.write = false)
                        ∧ st = .notPermitted
                      ∨ pol.allows mode = true ∧ (mode = .sole → ∃ nr, s.node q.node = some nr ∧ nr.write = true)
                        ∧ ((s.xl e).drainMark = true ∧ st = .mapPending
                          ∨ (s.xl e).drainMark = false ∧ (∃ c ∈ (s.xl e).queue, c.req.node = q.node)
                            ∧ st = .duplicate))) →
                HeldRefused s t p f q st)
              ∧ (∀ nr slot l, s.node q.node = some nr → q.node ≠ f.node.toNat → s.tables →
                (∃ pol, s.effective r = .lent pol ∧ pol.allows mode = true) → (mode = .sole → nr.write = true) →
                (s.xl e).drainMark = false → (∀ c ∈ (s.xl e).queue, c.req.node ≠ q.node) →
                s.ownLoan q.node e = some (slot, l) →
                (mode = .shared ∨ l.state ≠ .held ∨ l.mode = .sole →
                  HeldRefused s t p f q .duplicate)
                ∧ (mode = .sole → l.state = .held → l.mode = .shared →
                  (s.pendingUpgrade e ≠ none →
                    HeldRefused s t p f q .conflict)
                  ∧ (s.pendingUpgrade e = none → s.loansOn e = [(slot, l)] →
                    HeldAnswered s t p f q .granted [.loans] (fun _ r => r) ∧ NoticedOnly s t
                    ∧ t.loans.tableWait = s.loans.tableWait.filter (fun x => decide (x ≠ e))
                    ∧ (∀ n, t.loan n =
                        if n = slot then { l with mode := .sole, remaining := s.units l.cls } else s.loan n)
                    ∧ t.loans.extents = s.loans.extents)
                  ∧ (s.pendingUpgrade e = none → s.loansOn e ≠ [(slot, l)] →
                    (wait = 0 →
                      HeldRefused s t p f q .busy)
                    ∧ (wait ≠ 0 → 1024 ≤ s.poolUsed →
                      HeldTableFull s t p f q .poolFull e)
                    ∧ (wait ≠ 0 → s.poolUsed < 1024 →
                      HeldWaits s t [.loans] ∧ SenderAdmitted s t p f
                      ∧ t.loans.tableWait = s.loans.tableWait.filter (fun x => decide (x ≠ e))
                      ∧ (∀ n, t.loan n = if n = slot then { l with state := .upgrading } else s.loan n)
                      ∧ ∀ x, t.xl x = if x = e then
                            { s.xl x with queue := ⟨q, .upgrade ⟨slot, l.issue⟩, cls, wait⟩ :: (s.xl x).queue }
                          else s.xl x))))
              ∧ ∀ nr, s.node q.node = some nr → q.node ≠ f.node.toNat →
                (∃ pol, s.effective r = .lent pol ∧ pol.allows mode = true) → (mode = .sole → nr.write = true) →
                (s.xl e).drainMark = false → (∀ c ∈ (s.xl e).queue, c.req.node ≠ q.node) →
                (∀ x ∈ s.loansOn e, x.2.holder ≠ q.node) →
                (nr.quota ≤ nr.held + nr.waiting →
                  HeldRefused s t p f q .quota)
                ∧ (nr.held + nr.waiting < nr.quota →
                  (∀ slot k, (s.xl e).queue = [] → (mode = .shared → s.summary e ≠ .sole) →
                    (mode = .sole → s.summary e = .idle) → s.lowestFree = some slot →
                    k = min cls (min r.ceiling nr.ceiling) →
                    HeldAnswered s t p f q .granted [.loans]
                      (fun n x => if n = q.node then { x with held := x.held + 1 } else x)
                    ∧ NoticedOnly s t ∧ t.loans.extents = s.loans.extents ∧ t.loans.tableWait = s.loans.tableWait
                    ∧ (∀ n, t.loan n = if n = slot then
                          ⟨(s.loan slot).issue, .held, q.node, e, mode, k, s.units k, 0, false, 0, none, none⟩
                        else s.loan n))
                  ∧ ((s.xl e).queue = [] → (mode = .shared → s.summary e ≠ .sole) →
                    (mode = .sole → s.summary e = .idle) → s.lowestFree = none →
                    HeldTableFull s t p f q .tableFull e)
                  ∧ ((s.xl e).queue ≠ [] ∨ mode = .shared ∧ s.summary e = .sole
                      ∨ mode = .sole ∧ s.summary e ≠ .idle →
                    (wait = 0 →
                      HeldRefused s t p f q .busy)
                    ∧ (wait ≠ 0 → 1024 ≤ s.poolUsed →
                      HeldTableFull s t p f q .poolFull e)
                    ∧ (wait ≠ 0 → s.poolUsed < 1024 →
                    HeldWaits s t [.loans] ∧ t.loans.table = s.loans.table ∧ t.loans.tableWait = s.loans.tableWait
                    ∧ (∀ x, t.xl x = if x = e then
                          { s.xl x with queue := (s.xl x).queue ++ [⟨q, mode.entryKind, cls, wait⟩] }
                        else s.xl x)
                    ∧ ∀ n, t.node n = if n = q.node then some { nr with waiting := nr.waiting + 1 }
                        else s.nodeAfter p f n))))
        ∧ (∀ write slot issue e offset count data, h.args = .transfer write slot issue e offset count data →
            (¬ s.heldBy ⟨slot, issue⟩ q.node ∨ (s.loan slot).state = .closing →
              HeldRefused s t p f q .loanEnded)
            ∧ (s.heldBy ⟨slot, issue⟩ q.node → (s.loan slot).state ≠ .closing →
              (write = true → (s.loan slot).mode = .shared →
                HeldRefused s t p f q .notPermitted)
              ∧ ((write = true → (s.loan slot).mode = .sole) →
                ∀ r, s.extent (s.loan slot).extent = some r →
                ReleasedAtBay s t p f q r.bay
                ∧ (((s.bay r.bay).state = .ready ∨ (s.bay r.bay).state = .servicePending) →
                (s.bay r.bay).queue.length < 16 →
                HeldWaits s t [.loans, .bays] ∧ SenderAdmitted s t p f
                ∧ BayJoined s t r.bay ⟨if write then .write else .read, q, some ⟨slot, issue⟩,
                    some (s.loan slot).extent, r.base + offset, count, data⟩
                ∧ (∀ n, t.loan n = if n = slot then
                      { s.loan n with outstanding := (s.loan n).outstanding + 1 } else s.loan n)
                ∧ t.loans.extents = s.loans.extents ∧ t.loans.tableWait = s.loans.tableWait))))
        ∧ ∀ e offset count, h.args = .openRead e offset count →
            (s.extent e = none →
              HeldRefused s t p f q .noExtent)
            ∧ ∀ r, s.extent e = some r →
              (2 ^ r.k < offset + count →
                HeldRefused s t p f q .range)
              ∧ (offset + count ≤ 2 ^ r.k → s.loader.state = .draining → e ∈ s.loader.affected →
                (s.loader.mode = some .forced ∨ s.loader.escalated = true) →
                HeldRefused s t p f q .mapPending)
              ∧ (offset + count ≤ 2 ^ r.k →
                (s.loader.state ≠ .draining ∨ e ∉ s.loader.affected
                  ∨ s.loader.mode ≠ some .forced ∧ s.loader.escalated = false) →
                ReleasedAtBay s t p f q r.bay
                ∧ (((s.bay r.bay).state = .ready ∨ (s.bay r.bay).state = .servicePending) →
                (s.bay r.bay).queue.length < 16 →
                HeldWaits s t [.loans, .bays] ∧ SenderAdmitted s t p f
                ∧ BayJoined s t r.bay ⟨.openRead, q, none, some e, r.base + offset, count, []⟩
                ∧ t.loans.table = s.loans.table ∧ t.loans.tableWait = s.loans.tableWait
                ∧ ∀ x, t.xl x = if x = e then { s.xl x with openReads := (s.xl x).openReads + 1 } else s.xl x))

/-! ### Map Loader -/

/-- OPEN LOAD copies the effective map into the staging map; STAGE EXTENT, UNSTAGE EXTENT and READ STAGED work on the
staging map and set the open timer back to 30 s. Taken in another state, a request is refused LOADER_BUSY in CHECKING
and LOADER_STATE elsewhere, and nothing changes. (The item's fields are read most significant byte first: assumption
10.) -/
def Obligations.LoaderStaging : Prop :=
  ∀ (s : State) (p : PortId) (f : Frame), s.oneAuthority →
    (Taken s p 35 f (legalPlain f) →
      (s.loader.state = .idle → ∃ t, exec (.openLoad p f) s = .next t
        ∧ Done s t p f (loaderReply 35 f .ok .opened) [.loader]
        ∧ t.loader = { s.loader with state := .opened, staging := s.map.records, openTimer := some 30 })
      ∧ (s.loader.state ≠ .idle → ∃ t, exec (.openLoad p f) s = .next t
        ∧ Done s t p f (loaderReply 35 f (if s.loader.state = .checking then .loaderBusy else .loaderState)
            s.loader.state) []))
    ∧ (s.loader.state = .opened →
      (Taken s p 36 f (legalStage f) → ∃ t, exec (.stageExtent p f) s = .next t
        ∧ Done s t p f (loaderReply 36 f .ok .opened) [.loader]
        ∧ t.loader = { s.loader with
            staging := s.loader.staging.put (extentOf f) (stagedRecordOf f), openTimer := some 30 })
      ∧ (Taken s p 37 f (legalByExtent f) → ∃ t, exec (.unstageExtent p f) s = .next t
        ∧ Done s t p f (loaderReply 37 f
            (if s.loader.staging.look (extentOf f) = none then .noExtent else .ok) .opened) [.loader]
        ∧ (∀ e, t.loader.staging.look e = if e = extentOf f then none else s.loader.staging.look e)
        ∧ t.loader = { s.loader with staging := t.loader.staging, openTimer := some 30 })
      ∧ (Taken s p 38 f (legalByExtent f) → ∃ t, exec (.readStaged p f) s = .next t
        ∧ t.loader = { s.loader with openTimer := some 30 }
        ∧ (match s.loader.staging.look (extentOf f) with
          | none => Done s t p f (loaderReply 38 f .noExtent .opened) [.loader]
          | some r => Done s t p f { loaderReply 38 f .ok .opened with
              body := [.stagedRecord (extentOf f) r.bay r.base r.k r.settings r.ceiling r.policy.code
                (match s.extent (extentOf f) with
                  | none => 2
                  | some x => if x = r then 0 else 1)] } [.loader])))
    ∧ (s.loader.state ≠ .opened →
      ∀ st, st = (if s.loader.state = .checking then Status.loaderBusy else Status.loaderState) →
      (Taken s p 36 f (legalStage f) → ∃ t, exec (.stageExtent p f) s = .next t
        ∧ Done s t p f (loaderReply 36 f st s.loader.state) [])
      ∧ (Taken s p 37 f (legalByExtent f) → ∃ t, exec (.unstageExtent p f) s = .next t
        ∧ Done s t p f (loaderReply 37 f st s.loader.state) [])
      ∧ (Taken s p 38 f (legalByExtent f) → ∃ t, exec (.readStaged p f) s = .next t
        ∧ Done s t p f (loaderReply 38 f st s.loader.state) [])
      ∧ (Taken s p 39 f (legalCommit f) → ∃ t, exec (.commitLoad p f) s = .next t
        ∧ Done s t p f (loaderReply 39 f st s.loader.state) []))

/-- COMMIT LOAD in OPEN records mode, limit and action, owes its reply and goes to CHECKING. DISCARD LOAD outside IDLE clears
the drain marks, leaves the loader IDLE and empty, answers an owed COMMIT LOAD ABORTED, and is then answered OK; in IDLE it
is refused LOADER_STATE. -/
def Obligations.CommitAndDiscardLoad : Prop :=
  ∀ (s : State) (p : PortId) (f : Frame), s.oneAuthority →
    (Taken s p 39 f (legalCommit f) → s.loader.state = .opened → ∃ t, exec (.commitLoad p f) s = .next t
      ∧ Unanswered s t p ∧ SenderAdmitted s t p f ∧ NoticedOnly s t
      ∧ OnlyChanges [.ports, .roster, .events, .loader] s t
      ∧ t.loader = { s.loader with
          state := .checking, openTimer := none, mode := some (commitMode f), drainLimit := some f.argB.toNat
          onLimit := some (commitOnLimit f), commitOwed := some (s.reqOf p 39 f) })
    ∧ (Taken s p 40 f (legalPlain f) →
      (s.loader.state = .idle → ∃ t, exec (.discardLoad p f) s = .next t
        ∧ Done s t p f (loaderReply 40 f .loaderState .idle) [])
      ∧ (s.loader.state ≠ .idle → ∃ t, exec (.discardLoad p f) s = .next t
        ∧ Ready.at t p (loaderReply 40 f .ok .idle) ∧ NoticedOnly s t
        ∧ OnlyChanges [.ports, .roster, .events, .loader, .loans] s t ∧ t.loader = Loader.reset
        ∧ RosterAfter (s.admitted p 40 f) t (fun q => s.loader.commitOwed = some q) (fun _ r => r)
        ∧ (∀ e, t.xl e =
            if e ∈ s.loader.affected then { s.xl e with drainMark := false } else s.xl e)
        ∧ t.loans.table = s.loans.table ∧ t.loans.tableWait = s.loans.tableWait
        ∧ ∀ q, s.loader.commitOwed = some q → Answered s t q .aborted
            ∧ (q.port = p → q.round = (s.port p).round →
                JoinedInOrder s t p (ReplyTo q .aborted) (fun x => x = ⟨loaderReply 40 f .ok .idle, true⟩))))

/-- What the refusals MAP_PENDING of a commit's drain (R131) leave of the claims on `es`: the replies, the loans whose
UPGRADE entries these were, the table-wait list and the waiting counts. Requests that `more` picks are answered beside. -/
def MapPendingSaid (s t : State) (es : List Nat) (more : Req → Prop) : Prop :=
  (∀ e ∈ es, ∀ c ∈ (s.xl e).queue, Answered s t c.req .mapPending)
  ∧ (∀ n, (s.loan n).state ≠ .upgrading
      ∨ (∀ e ∈ es, ∀ c ∈ (s.xl e).queue, ∀ h, c.kind = .upgrade h → h.slot ≠ n) → t.loan n = s.loan n)
  ∧ (∀ e ∈ es, ∀ c ∈ (s.xl e).queue, ∀ h, c.kind = .upgrade h → (s.loan h.slot).state = .upgrading →
      t.loan h.slot = { s.loan h.slot with state := .held })
  ∧ t.loans.tableWait = s.loans.tableWait.filter (fun e => decide (e ∉ es ∨ (s.xl e).queue = []))
  ∧ RosterAfter s t (fun q => (∃ e ∈ es, ∃ c ∈ (s.xl e).queue, q = c.req) ∨ more q)
      (fun n r => { r with waiting := r.waiting - s.waitingAt es n })

/-- The forced revocations of `pick` have left the old map in place: its records and the fences are as they were, and
generations, marks and watches as the freed SOLE loans leave them. -/
def StillOldMap (s t : State) (pick : Nat → Bool) : Prop :=
  t.map.records = s.map.records ∧ PairsRevoked s t pick ∧ t.watches = s.watchesRevoked pick ∧ t.fences = s.fences

/-- CHECK_COMPLETION. The check walks the staging map in ascending number with R128's six tests in their order; where one
fails, the load goes back to OPEN and CHECK_FAILED names the record, the reason and, for OVERLAP, a lower number it
overlaps. Where none fails the staging map is legal: with no affected extent in use it is swapped in at once. Else the drain
marks are set and every claim entry on the affected extents is refused MAP_PENDING, its place and waiting count given back
and an UPGRADING loan HELD again; with loans or open reads there an ORDERLY commit then stays in DRAINING, and with none it
swaps. A FORCED commit then makes R132's forced revocations, and swaps where no loan and no open read is left (said where
no other claim waits for a slot and no bay is SERVICE_PENDING). Outside CHECKING nothing changes. (Outside CHECKING: assumption 4; the lower number is a free choice: assumption 17.) -/
def Obligations.CheckCompletion : Prop :=
  ∀ s : State,
    (s.loader.state ≠ .checking → exec .checkCompletion s = .next s)
    ∧ (s.loader.state = .checking → s.loader.staging.rising = true →
      (∀ e why, WalkEnds s.loader.staging e why →
        ∃ t, exec .checkCompletion s = .next t ∧ OnlyChanges [.ports, .roster, .loader, .choices] s t
          ∧ RosterAfter s t (fun q => s.loader.commitOwed = some q) (fun _ r => r)
          ∧ t.loader = { s.loader with
              state := .opened, mode := none, drainLimit := none, onLimit := none, openTimer := some 30
              commitOwed := none }
          ∧ ∀ q, s.loader.commitOwed = some q → Answered s t q .checkFailed
              ∧ (q.code = 39 → (s.port q.port).up = true → q.round = (s.port q.port).round →
                ∃ low, (why ≠ 6 → low = 0)
                  ∧ (why = 6 → low < e ∧ ∃ r x, s.loader.staging.look e = some r ∧ s.loader.staging.look low = some x
                      ∧ x.bay = r.bay ∧ x.base < r.base + 2 ^ r.k ∧ r.base < x.base + 2 ^ x.k)
                  ∧ Ready.at t q.port ⟨false, 39, .checkFailed, q.node, q.tag, false, q.passed, none, e, why, 1, low,
                      0, 0, []⟩))
      ∧ (LegalMap s.loader.staging →
        ∀ es : List Nat, es.Nodup → (∀ e, e ∈ es ↔ s.map.records.look e ≠ s.loader.staging.look e) →
        ((∀ e ∈ es, s.loansOn e = [] ∧ (s.xl e).queue = [] ∧ (s.xl e).openReads = 0) →
          ∃ t, exec .checkCompletion s = .next t ∧ Swapped s t es
            ∧ (∀ q, s.loader.commitOwed = some q → Answered s t q .ok)
            ∧ RosterAfter s t (fun q => s.loader.commitOwed = some q) (fun _ r => r)
            ∧ OnlyChanges [.ports, .roster, .map, .loans, .watches, .fences, .loader, .events, .choices] s t)
        ∧ ((∃ e ∈ es, s.loansOn e ≠ [] ∨ (s.xl e).openReads ≠ 0) → s.loader.mode = some .orderly →
          (s.tables ∨ ∀ e ∈ es, (s.xl e).queue = []) →
          ∃ t, exec .checkCompletion s = .next t ∧ OnlyChanges [.ports, .roster, .loans, .loader, .choices] s t
            ∧ (∀ e, e ∈ t.loader.affected ↔ e ∈ es)
            ∧ t.loader = { s.loader with
                state := .draining, affected := t.loader.affected, drainTimer := s.loader.drainLimit
                escalated := false }
            ∧ (∀ e, t.xl e = if e ∈ es then { s.xl e with drainMark := true, queue := [] } else s.xl e)
            ∧ MapPendingSaid s t es (fun _ => False)
            ∧ ((∀ e ∈ es, (s.xl e).queue = []) →
                OnlyChanges [.loans, .loader] s t ∧ t.loans.table = s.loans.table))
        ∧ ((∀ e ∈ es, s.loansOn e = [] ∧ (s.xl e).openReads = 0) → (∃ e ∈ es, (s.xl e).queue ≠ []) →
          s.loader.mode = some .orderly →
          ∃ t, exec .checkCompletion s = .next t ∧ MapSwapped s t es
            ∧ (∀ e ∈ es, ∀ c ∈ (s.xl e).queue, Answered s t c.req .mapPending)
            ∧ (∀ e, t.xl e = if e ∈ es then { s.xl e with drainMark := false, queue := [] } else s.xl e)
            ∧ (s.tables → MapPendingSaid s t es (fun q => s.loader.commitOwed = some q))
            ∧ OnlyChanges [.ports, .roster, .map, .loans, .watches, .fences, .loader, .events, .choices] s t
            ∧ ∀ q, s.loader.commitOwed = some q → Answered s t q .ok)
        ∧ ((∃ e ∈ es, s.loansOn e ≠ [] ∨ (s.xl e).queue ≠ [] ∨ (s.xl e).openReads ≠ 0) →
          s.loader.mode = some .forced → s.tables → s.openReadsPlain → s.loans.tableWait = [] →
          (∀ b, (s.bay b).state ≠ .servicePending) →
          (∀ e ∈ es, ∀ c ∈ (s.xl e).queue, ∀ h, c.kind = .upgrade h → (s.loan h.slot).extent = e) →
          ∃ t, exec .checkCompletion s = .next t ∧ ForcedOut s t es
            ∧ (∀ e ∈ es, ∀ c ∈ (s.xl e).queue, Answered s t c.req .mapPending)
            ∧ (∀ e, (t.xl e).queue = if e ∈ es then [] else (s.xl e).queue)
            ∧ OnlyChanges [.ports, .roster, .map, .loans, .bays, .watches, .fences, .loader, .events, .choices] s t
            ∧ t.loans.tableWait = []
            ∧ RosterAfter s t (AwaitsReply s) (fun n r => { r with
                held := if n = 0 then r.held else r.held - s.freedOf (s.forcedPick es) n
                waiting := r.waiting - s.waitingAt es n })
            ∧ (if ∃ e ∈ es, t.loansOn e ≠ [] ∨ (t.xl e).openReads ≠ 0 then
                (∀ e, e ∈ t.loader.affected ↔ e ∈ es)
                ∧ t.loader = { s.loader with
                    state := .draining, affected := t.loader.affected, drainTimer := s.loader.drainLimit
                    escalated := false }
                ∧ (∀ e, (t.xl e).drainMark = (decide (e ∈ es) || (s.xl e).drainMark))
                ∧ StillOldMap s t (s.forcedPick es)
              else
                MapSwapped s t es ∧ (∀ e, (t.xl e).drainMark = (decide (e ∉ es) && (s.xl e).drainMark))
                ∧ ∀ q, s.loader.commitOwed = some q → Answered s t q .ok))))

/-- SWAP: a DRAINING load whose affected extents hold no loan and no open read is put in place, with R135's six effects,
and an owed COMMIT LOAD is answered OK. A node with the one watch on those extents gets its CHANGE notice of reason MAP.
In any other state nothing changes. (The row as a command of its own: assumption 3.) -/
def Obligations.Swap : Prop :=
  ∀ s : State,
    (s.loader.state ≠ .draining ∨ (∃ e ∈ s.loader.affected, s.loansOn e ≠ [] ∨ (s.xl e).openReads ≠ 0) →
      exec .swap s = .next s)
    ∧ (s.loader.state = .draining → (∀ e ∈ s.loader.affected, s.loansOn e = [] ∧ (s.xl e).openReads = 0) →
      ∃ t, exec .swap s = .next t ∧ Swapped s t s.loader.affected
        ∧ (∀ q, s.loader.commitOwed = some q → Answered s t q .ok)
        ∧ RosterAfter s t (fun q => s.loader.commitOwed = some q) (fun _ r => r)
        ∧ OnlyChanges [.ports, .roster, .map, .loans, .watches, .fences, .loader, .events, .choices] s t
        ∧ ∀ x, s.watches.filter (fun y => decide (y.2.extent ∈ s.loader.affected)) = [x] →
            Notified s t x.2.node (changeNotice x.2.node x.2.extent ⟨0, false⟩ .map))

/-- OPEN_TIMEOUT gives the load up and raises LOADER; DRAIN_LIMIT_EXPIRY with DISCARD clears the drain marks, gives the
load up, answers an owed COMMIT LOAD DRAIN_TIMEOUT and raises LOADER; with FORCE it raises LOADER, escalates, and makes
R132's forced revocations: the loader stays DRAINING, with no drain timer, where a loan or an open read is left, and
swaps otherwise (said where no claim waits on an affected extent or for a slot and no bay is SERVICE_PENDING). Where the
timer is not at 0 nothing changes. (The rows as commands of their own: assumption 3.) -/
def Obligations.LoaderTimers : Prop :=
  ∀ s : State,
    (s.loader.state ≠ .opened ∨ s.loader.openTimer ≠ some 0 → exec .openTimeout s = .next s)
    ∧ (s.loader.state = .opened → s.loader.openTimer = some 0 →
      ∃ t, exec .openTimeout s = .next t ∧ t.loader = Loader.reset ∧ Recorded s t .loader ⟨1, 0, 0⟩
        ∧ NoticesOnly s t ∧ OnlyChanges [.ports, .loader, .events] s t)
    ∧ (s.loader.state ≠ .draining ∨ s.loader.drainTimer ≠ some 0 → exec .drainLimitExpiry s = .next s)
    ∧ (s.loader.state = .draining → s.loader.drainTimer = some 0 →
      (s.loader.onLimit = some .discard →
        ∃ t, exec .drainLimitExpiry s = .next t ∧ t.loader = Loader.reset ∧ Recorded s t .loader ⟨2, 0, 0⟩
          ∧ (∀ e, t.xl e = if e ∈ s.loader.affected then { s.xl e with drainMark := false } else s.xl e)
          ∧ t.loans.table = s.loans.table ∧ t.loans.tableWait = s.loans.tableWait
          ∧ (∀ q, s.loader.commitOwed = some q → Answered s t q .drainTimeout)
          ∧ RosterAfter s t (fun q => s.loader.commitOwed = some q) (fun _ r => r)
          ∧ OnlyChanges [.ports, .roster, .loans, .loader, .events] s t)
      ∧ (s.loader.onLimit = some .force → (∀ e ∈ s.loader.affected, (s.xl e).queue = []) →
        s.loader.affected.Nodup → s.tables → s.openReadsPlain → s.loans.tableWait = [] →
        (∀ b, (s.bay b).state ≠ .servicePending) →
        ∃ t, exec .drainLimitExpiry s = .next t ∧ ForcedOut s t s.loader.affected
          ∧ Recorded s t .loader ⟨3, 0, 0⟩
          ∧ OnlyChanges [.ports, .roster, .map, .loans, .bays, .watches, .fences, .loader, .events, .choices] s t
          ∧ (∀ e, (t.xl e).queue = (s.xl e).queue) ∧ t.loans.tableWait = []
          ∧ RosterAfter s t (AwaitsReply s) (fun n r => { r with
              held := if n = 0 then r.held else r.held - s.freedOf (s.forcedPick s.loader.affected) n })
          ∧ (if ∃ e ∈ s.loader.affected, t.loansOn e ≠ [] ∨ (t.xl e).openReads ≠ 0 then
              t.loader = { s.loader with drainTimer := none, escalated := true }
              ∧ (∀ e, (t.xl e).drainMark = (s.xl e).drainMark)
              ∧ StillOldMap s t (s.forcedPick s.loader.affected)
            else
              MapSwapped s t s.loader.affected
              ∧ (∀ e, (t.xl e).drainMark = (decide (e ∉ s.loader.affected) && (s.xl e).drainMark))
              ∧ ∀ q, s.loader.commitOwed = some q → Answered s t q .ok))
      ∧ (s.loader.onLimit = some .force → (∃ e ∈ s.loader.affected, (s.xl e).openReads ≠ 0) →
        (∀ e ∈ s.loader.affected, s.loansOn e = []) →
        (∀ b, ∀ x ∈ (s.bay b).queue, x.kind ≠ .openRead) →
        ∃ t, exec .drainLimitExpiry s = .next t ∧ t.loader = { s.loader with drainTimer := none, escalated := true }
          ∧ Recorded s t .loader ⟨3, 0, 0⟩ ∧ NoticesOnly s t
          ∧ OnlyChanges [.ports, .loader, .events, .choices] s t))

/-! ### Node Roster -/

/-- ENROLL NODE adds a record; SET NODE without a move of the role changes the three settings of a record together; neither
touches another record. DUPLICATE, ROSTER_FULL, UNKNOWN_NODE and QUOTA as their rules say, changing nothing. -/
def Obligations.EnrollAndSetNode : Prop :=
  ∀ (s : State) (p : PortId) (f : Frame), s.oneAuthority →
    (Taken s p 53 f (legalEnroll f) →
      (s.node (offsetOf f) ≠ none →
        ∃ t, exec (.enrollNode p f) s = .next t ∧ Done s t p f (plainReply 53 f .duplicate) [])
      ∧ (s.node (offsetOf f) = none → 512 ≤ s.roster.length →
        ∃ t, exec (.enrollNode p f) s = .next t ∧ Done s t p f (plainReply 53 f .rosterFull) [])
      ∧ (s.node (offsetOf f) = none → s.roster.length < 512 →
        ∃ t, exec (.enrollNode p f) s = .next t ∧ Replied s t p (plainReply 53 f .ok) ∧ NoticedOnly s t
          ∧ OnlyChanges [.ports, .roster, .events] s t
          ∧ ∀ n, t.node n = if n = offsetOf f then
                some ⟨.render, .enrolled, none, settingQuota f, settingWrite f, settingCeiling f, 0, 0, 0⟩
              else s.nodeAfter p f n))
    ∧ (Taken s p 54 f (legalSetting f) →
      (s.node (offsetOf f) = none →
        ∃ t, exec (.setNode p f) s = .next t ∧ Done s t p f (plainReply 54 f .unknownNode) [])
      ∧ ∀ r, s.node (offsetOf f) = some r → (settingTakesRole f = false ∨ r.role = .authority) →
        (settingQuota f < r.held + r.waiting →
          ∃ t, exec (.setNode p f) s = .next t ∧ Done s t p f (plainReply 54 f .quota) [])
        ∧ (r.held + r.waiting ≤ settingQuota f →
          ∃ t, exec (.setNode p f) s = .next t ∧ Replied s t p (plainReply 54 f .ok) ∧ NoticedOnly s t
            ∧ OnlyChanges [.ports, .roster, .events] s t
            ∧ ∀ n, t.node n = if n = offsetOf f then (s.nodeAfter p f n).map (fun x => { x with
                  quota := settingQuota f, write := settingWrite f, ceiling := settingCeiling f })
                else s.nodeAfter p f n))

/-- SET NODE that asks for the AUTHORITY role: NOT_PERMITTED for a BARRED record, BUSY for one with loans, claim entries or tags
in use; else the role moves in one step, the settings are taken, the old authority is RENDER, and the new one's watches
go. -/
def Obligations.RoleMove : Prop :=
  ∀ (s : State) (p : PortId) (f : Frame) (r : NodeRec), s.oneAuthority → Taken s p 54 f (legalSetting f) →
    settingTakesRole f = true → s.node (offsetOf f) = some r → r.role = .render →
    (r.state = .barred →
      ∃ t, exec (.setNode p f) s = .next t ∧ Done s t p f (plainReply 54 f .notPermitted) [])
    ∧ (r.state ≠ .barred → (0 < r.held ∨ s.hasEntry (offsetOf f) = true ∨ r.tags ≠ 0) →
      ∃ t, exec (.setNode p f) s = .next t ∧ Done s t p f (plainReply 54 f .busy) [])
    ∧ (r.state ≠ .barred → r.held = 0 → s.hasEntry (offsetOf f) = false → r.tags = 0 →
      ∃ t, exec (.setNode p f) s = .next t ∧ Ready.at t p (plainReply 54 f .ok) ∧ NoticedOnly s t
        ∧ OnlyChanges [.ports, .roster, .watches, .events] s t
        ∧ t.watches = s.watches.filter (fun x => decide (x.2.node ≠ offsetOf f))
        ∧ t.oneAuthority
        ∧ ∀ n, t.node n = if n = offsetOf f then some { r with
              role := .authority, quota := settingQuota f, write := settingWrite f, ceiling := settingCeiling f }
            else (s.nodeAfter p f n).map (fun x => { x with role := .render }))

/-- What the unwinding of a bar (R146) makes of the blocks where nothing else waits on it: the node's held requests,
claim entries, loans, queued OPEN READs and watches are gone, each answered with its status. -/
def Barred (s t : State) (n : Nat) : Prop :=
  t.fences = { s.fences with held := s.fences.held.filter (fun x => decide (x.2.req.node ≠ n)) }
  ∧ (∀ x ∈ s.fences.held, x.2.req.node = n → Answered s t x.2.req .barred)
  ∧ (∀ e, (t.xl e).queue = (s.xl e).queue.filter (fun c => decide (c.req.node ≠ n)))
  ∧ (∀ e, ∀ c ∈ (s.xl e).queue, c.req.node = n → Answered s t c.req .barred)
  ∧ LoansRevoked s t .barred .cancelled (fun m => decide ((s.loan m).holder = n))
  ∧ PairsRevoked s t (fun m => decide ((s.loan m).holder = n))
  ∧ (∀ b, t.bay b = { s.bay b with queue := (s.bay b).queue.filter (fun x =>
      !(s.ofPicked b (fun m => decide ((s.loan m).holder = n)) x || isOpenReadOf n x)) })
  ∧ (∀ b, ∀ x ∈ (s.bay b).queue, x.kind = .openRead → x.req.node = n → Answered s t x.req .cancelled)
  ∧ (∀ e, (t.xl e).drainMark = (s.xl e).drainMark ∧ (t.xl e).openReads = (s.xl e).openReads -
      (allBays.map (fun b => ((s.bay b).queue.filter
        (fun x => isOpenReadOf n x && decide (x.extent = some e))).length)).sum)
  ∧ t.watches = (s.watchesRevoked (fun m => decide ((s.loan m).holder = n))).filter (fun x => decide (x.2.node ≠ n))
  ∧ t.map.records = s.map.records ∧ t.loans.tableWait = s.loans.tableWait

/-- BAR NODE makes a RENDER record BARRED and unwinds what it holds: held requests and claim entries are answered BARRED,
its loans are revoked with reason BARRED and their queued transfers answered CANCELLED, its queued OPEN READs are answered
CANCELLED, its watches go without notice, and its counts fall; OK comes last. (The unwinding is said where no other claim
waits on what is freed or re-evaluated and no entry or drain test follows; the order of the kinds is assumption 28.) UNBAR
NODE makes it PRESENT or ENROLLED again; REMOVE NODE takes a record off that holds nothing. Each is answered OK; the
refusals are those of their rules. -/
def Obligations.BarUnbarAndRemove : Prop :=
  ∀ (s : State) (p : PortId) (f : Frame), s.oneAuthority →
    (Taken s p 55 f (legalByNode f) →
      (s.node (offsetOf f) = none →
        ∃ t, exec (.barNode p f) s = .next t ∧ Done s t p f (plainReply 55 f .unknownNode) [])
      ∧ ∀ r, s.node (offsetOf f) = some r →
        (r.role = .authority →
          ∃ t, exec (.barNode p f) s = .next t ∧ Done s t p f (plainReply 55 f .notPermitted) [])
        ∧ (r.role = .render → r.state = .barred →
          ∃ t, exec (.barNode p f) s = .next t ∧ Done s t p f (plainReply 55 f .ok) [])
        ∧ (r.role = .render → r.state ≠ .barred → s.tables → s.openReadsPlain → s.loans.tableWait = [] →
          s.loader.state ≠ .draining → (∀ b, (s.bay b).state ≠ .servicePending) →
          (∀ e, (∃ c ∈ (s.xl e).queue, c.req.node = offsetOf f) ∨ (∃ x ∈ s.loansOn e, x.2.holder = offsetOf f) →
            ∀ c ∈ (s.xl e).queue, c.req.node = offsetOf f) →
          (∀ e, ∀ c ∈ (s.xl e).queue, c.req.node = offsetOf f → ∀ h, c.kind = .upgrade h →
            (s.loan h.slot).holder = offsetOf f) →
          ∃ t, exec (.barNode p f) s = .next t ∧ Ready.at t p (plainReply 55 f .ok)
            ∧ (∃ before, (t.port p).egress = before ++ [⟨plainReply 55 f .ok, true⟩])
            ∧ Barred s t (offsetOf f)
            ∧ OnlyChanges [.ports, .roster, .map, .loans, .bays, .watches, .fences, .events, .choices] s t
            ∧ RosterAfter (s.admitted p 55 f) t (AwaitsReply s) (fun n x => if n = offsetOf f then { x with
                state := .barred
                held := x.held - ((s.loansOf n).filter (fun y => !s.keepsRevoked y.1)).length
                waiting := x.waiting - (s.loans.extents.map (fun y => (y.2.queue.filter (fun c =>
                  decide (c.req.node = n) && decide (c.kind = .shared ∨ c.kind = .sole))).length)).sum }
              else x))
        ∧ (r.role = .render → r.state ≠ .barred → (∀ x ∈ s.fences.held, x.2.req.node ≠ offsetOf f) →
          s.hasEntry (offsetOf f) = false → s.loansOf (offsetOf f) = [] →
          (∀ b, ∀ x ∈ (s.bay b).queue, x.kind ≠ .openRead ∨ x.req.node ≠ offsetOf f) →
          ∃ t, exec (.barNode p f) s = .next t ∧ Replied s t p (plainReply 55 f .ok) ∧ NoticedOnly s t
            ∧ OnlyChanges [.ports, .roster, .watches, .events, .choices] s t
            ∧ t.watches = s.watches.filter (fun x => decide (x.2.node ≠ offsetOf f))
            ∧ ∀ n, t.node n =
                if n = offsetOf f then some { r with state := .barred } else s.nodeAfter p f n))
    ∧ (Taken s p 56 f (legalByNode f) →
      (s.node (offsetOf f) = none →
        ∃ t, exec (.unbarNode p f) s = .next t ∧ Done s t p f (plainReply 56 f .unknownNode) [])
      ∧ ∀ r, s.node (offsetOf f) = some r →
        (r.state ≠ .barred →
          ∃ t, exec (.unbarNode p f) s = .next t ∧ Done s t p f (plainReply 56 f .ok) [])
        ∧ (r.state = .barred →
          ∃ t, exec (.unbarNode p f) s = .next t ∧ Replied s t p (plainReply 56 f .ok) ∧ NoticedOnly s t
            ∧ OnlyChanges [.ports, .roster, .events] s t
            ∧ ∀ n, t.node n = if n = offsetOf f then
                  some { r with state := if r.learned = none then .enrolled else .present }
                else s.nodeAfter p f n))
    ∧ (Taken s p 57 f (legalByNode f) →
      (s.node (offsetOf f) = none →
        ∃ t, exec (.removeNode p f) s = .next t ∧ Done s t p f (plainReply 57 f .unknownNode) [])
      ∧ ∀ r, s.node (offsetOf f) = some r →
        (r.role = .authority →
          ∃ t, exec (.removeNode p f) s = .next t ∧ Done s t p f (plainReply 57 f .notPermitted) [])
        ∧ (r.role = .render →
          (0 < r.held ∨ s.hasEntry (offsetOf f) = true ∨ (∃ x ∈ s.watches, x.2.node = offsetOf f) ∨ r.tags ≠ 0 →
            ∃ t, exec (.removeNode p f) s = .next t ∧ Done s t p f (plainReply 57 f .busy) [])
          ∧ (r.held = 0 → s.hasEntry (offsetOf f) = false → (∀ x ∈ s.watches, x.2.node ≠ offsetOf f) →
            r.tags = 0 →
            ∃ t, exec (.removeNode p f) s = .next t ∧ Replied s t p (plainReply 57 f .ok) ∧ NoticedOnly s t
              ∧ OnlyChanges [.ports, .roster, .events] s t
              ∧ ∀ n, t.node n = if n = offsetOf f then none else s.nodeAfter p f n)))

/-! ### Bays -/

/-- SERVICE BAY and RETURN BAY. A READY bay with no claim waiting on its extents, and for FORCED no loan there and no
queued open read, goes to SERVICE with OK where its extents hold no loan and no open read, and else to
SERVICE_PENDING, the reply owed. Claims that wait there are refused IN_SERVICE, an UPGRADING loan back to HELD; a
FORCED request then revokes the loans with reason SERVICE, their queued transfers and the queued OPEN READs answered
CANCELLED, and the bay is in SERVICE, OK, where nothing is left (said where no other claim, drain or entry into
service waits on what ends). A FAILED bay, or a SERVICE bay with nothing queued or in flight, goes back to READY with
its timeouts 0. The refusals are BAY_STATE and BUSY. ENTRY_INTO_SERVICE: a SERVICE_PENDING bay whose extents hold no
loan in any state and no open read is in SERVICE, and an owed SERVICE BAY is answered OK; elsewhere nothing changes.
(ENTRY_INTO_SERVICE as a command of its own: assumption 3.) -/
def Obligations.BayService : Prop :=
  (∀ (s : State) (p : PortId) (f : Frame) (b : Nat), s.oneAuthority → b = f.extent.toNat →
     (Taken s p 41 f (legalServiceBay f) →
       ((s.bay b).state ≠ .ready →
         ∃ t, exec (.serviceBay p f) s = .next t ∧ Done s t p f (plainReply 41 f .bayState) [])
       ∧ ((s.bay b).state = .ready → (∀ e ∈ s.bayExtents b, (s.xl e).queue = []) →
         (f.argA.toNat = 1 → (∀ e ∈ s.bayExtents b, s.loansOn e = []) ∧ ∀ x ∈ (s.bay b).queue, x.kind ≠ .openRead) →
         ((∀ e ∈ s.bayExtents b, s.loansOn e = [] ∧ (s.xl e).openReads = 0) →
           ∃ t, exec (.serviceBay p f) s = .next t ∧ Done s t p f (plainReply 41 f .ok) [.bays]
             ∧ ∀ c, t.bay c = if c = b then { s.bay b with state := .service, serviceOwed := none } else s.bay c)
         ∧ ((∃ e ∈ s.bayExtents b, s.loansOn e ≠ [] ∨ (s.xl e).openReads ≠ 0) →
           ∃ t, exec (.serviceBay p f) s = .next t ∧ Unanswered s t p ∧ SenderAdmitted s t p f ∧ NoticedOnly s t
             ∧ OnlyChanges [.ports, .roster, .events, .bays] s t
             ∧ ∀ c, t.bay c = if c = b then
                   { s.bay b with state := .servicePending, serviceOwed := some (s.reqOf p 41 f) }
                 else s.bay c))
       ∧ ((s.bay b).state = .ready → s.tables → s.openReadsPlain → s.loans.tableWait = [] →
         s.loader.state ≠ .draining → (∀ c, (s.bay c).state ≠ .servicePending) →
         (∀ e ∈ s.bayExtents b, ∀ c ∈ (s.xl e).queue, ∀ h, c.kind = .upgrade h → (s.loan h.slot).extent = e) →
         ∃ t, exec (.serviceBay p f) s = .next t ∧ ClaimsInService s t b
           ∧ (if ∃ e ∈ s.bayExtents b, t.loansOn e ≠ [] ∨ (t.xl e).openReads ≠ 0 then
               (t.bay b).state = .servicePending ∧ (t.bay b).serviceOwed = some (s.reqOf p 41 f)
             else
               (t.bay b).state = .service ∧ (t.bay b).serviceOwed = none ∧ Ready.at t p (plainReply 41 f .ok))
           ∧ (f.argA.toNat = 0 →
               OnlyChanges [.ports, .roster, .loans, .bays, .events, .choices] s t ∧ NoticedOnly s t
               ∧ (∀ c, t.bay c = if c = b then
                     { s.bay b with state := (t.bay b).state, serviceOwed := (t.bay b).serviceOwed } else s.bay c)
               ∧ (∀ e, (t.xl e).openReads = (s.xl e).openReads)
               ∧ (∀ n, t.loan n = if s.upgradeWaitsOn b n = true ∧ (s.loan n).state = .upgrading then
                     { s.loan n with state := .held } else s.loan n)
               ∧ RosterAfter (s.admitted p 41 f) t (AwaitsReply s)
                   (fun n x => { x with waiting := x.waiting - s.waitingAt (s.bayExtents b) n }))
           ∧ (f.argA.toNat = 1 →
               OnlyChanges [.ports, .roster, .map, .loans, .bays, .watches, .events, .choices] s t
               ∧ LoansRevoked s t .service .cancelled (s.lentOn b) ∧ PairsRevoked s t (s.lentOn b)
               ∧ t.watches = s.watchesRevoked (s.lentOn b)
               ∧ (∀ c, t.bay c = if c = b then { s.bay b with
                       state := (t.bay b).state, serviceOwed := (t.bay b).serviceOwed
                       queue := (s.bay b).queue.filter (fun x =>
                         !(s.ofPicked b (s.lentOn b) x || decide (x.kind = .openRead))) }
                     else s.bay c)
               ∧ (∀ x ∈ (s.bay b).queue, x.kind = .openRead → Answered s t x.req .cancelled)
               ∧ (∀ e, (t.xl e).openReads = (s.xl e).openReads - ((s.bay b).queue.filter
                   (fun x => decide (x.kind = .openRead) && decide (x.extent = some e))).length)
               ∧ RosterAfter (s.admitted p 41 f) t (AwaitsReply s) (fun n x => { x with
                   held := if n = 0 then x.held else x.held - s.freedOf (s.lentOn b) n
                   waiting := x.waiting - s.waitingAt (s.bayExtents b) n }))))
     ∧ (Taken s p 44 f (legalByBay f) →
       ((s.bay b).state = .absent ∨ (s.bay b).state = .ready ∨ (s.bay b).state = .servicePending →
         ∃ t, exec (.returnBay p f) s = .next t ∧ Done s t p f (plainReply 44 f .bayState) [])
       ∧ ((s.bay b).state = .service → ((s.bay b).queue ≠ [] ∨ (s.bay b).inFlight ≠ none) →
         ∃ t, exec (.returnBay p f) s = .next t ∧ Done s t p f (plainReply 44 f .busy) [])
       ∧ ((s.bay b).state = .failed ∨ (s.bay b).state = .service → (s.bay b).queue = [] → (s.bay b).inFlight = none →
         ∃ t, exec (.returnBay p f) s = .next t ∧ Done s t p f (plainReply 44 f .ok) [.bays]
           ∧ ∀ c, t.bay c = if c = b then { s.bay b with state := .ready, timeouts := 0 } else s.bay c)))
  ∧ ∀ (s : State) (b : BayId),
      ((s.bay b).state ≠ .servicePending ∨ (∃ e ∈ s.bayExtents b, s.loansOn e ≠ [] ∨ (s.xl e).openReads ≠ 0) →
        exec (.entryIntoService b) s = .next s)
      ∧ ((s.bay b).state = .servicePending → (∀ e ∈ s.bayExtents b, s.loansOn e = [] ∧ (s.xl e).openReads = 0) →
        ∃ t, exec (.entryIntoService b) s = .next t ∧ OnlyChanges [.ports, .roster, .bays] s t
          ∧ RosterAfter s t (fun q => (s.bay b).serviceOwed = some q) (fun _ r => r)
          ∧ (∀ c, t.bay c = if c = b.val then { s.bay b with state := .service, serviceOwed := none } else s.bay c)
          ∧ ∀ q, (s.bay b).serviceOwed = some q → Answered s t q .ok)

/-- SERVICE READ and SERVICE WRITE on a bay in SERVICE, within the disk and with fewer than 16 queued, join the bay's
queue with no reply yet; the refusals, in order, are BAY_STATE, RANGE and BAY_FULL. ISSUE: with nothing in flight, the
head of the queue of a READY, SERVICE_PENDING or SERVICE bay is issued with the next link sequence number, tick count 0
and its reply-sent mark clear, and the bay link receives the operation: a read, or a write with its data, of the
transfer's blocks, with that number; elsewhere nothing changes. (ISSUE as a command of its own: assumption 3.) -/
def Obligations.ServiceTransfersAndIssue : Prop :=
  (∀ (s : State) (p : PortId) (f : Frame) (b first : Nat), s.oneAuthority → b = f.extent.toNat →
     first = f.blockHigh.toNat * 2 ^ 32 + f.offset.toNat →
     (Taken s p 42 f (legalServiceRead f) →
       ((s.bay b).state ≠ .service →
         ∃ t, exec (.serviceRead p f) s = .next t ∧ Done s t p f (plainReply 42 f .bayState) [])
       ∧ ((s.bay b).state = .service →
         ((s.bay b).capacity < first + f.argB.toNat →
           ∃ t, exec (.serviceRead p f) s = .next t ∧ Done s t p f (plainReply 42 f .range) [])
         ∧ (first + f.argB.toNat ≤ (s.bay b).capacity →
           (16 ≤ (s.bay b).queue.length →
             ∃ t, exec (.serviceRead p f) s = .next t ∧ Done s t p f (plainReply 42 f .bayFull) [])
           ∧ ((s.bay b).queue.length < 16 →
             ∃ t, exec (.serviceRead p f) s = .next t ∧ Unanswered s t p ∧ SenderAdmitted s t p f
               ∧ NoticedOnly s t ∧ OnlyChanges [.ports, .roster, .events, .bays] s t
               ∧ BayJoined s t b ⟨.serviceRead, s.reqOf p 42 f, none, none, first, f.argB.toNat, []⟩))))
     ∧ (Taken s p 43 f (legalServiceWrite f) →
       ((s.bay b).state ≠ .service →
         ∃ t, exec (.serviceWrite p f) s = .next t ∧ Done s t p f (plainReply 43 f .bayState) [])
       ∧ ((s.bay b).state = .service →
         ((s.bay b).capacity < first + f.argB.toNat →
           ∃ t, exec (.serviceWrite p f) s = .next t ∧ Done s t p f (plainReply 43 f .range) [])
         ∧ (first + f.argB.toNat ≤ (s.bay b).capacity →
           (16 ≤ (s.bay b).queue.length →
             ∃ t, exec (.serviceWrite p f) s = .next t ∧ Done s t p f (plainReply 43 f .bayFull) [])
           ∧ ((s.bay b).queue.length < 16 →
             ∃ t, exec (.serviceWrite p f) s = .next t ∧ Unanswered s t p ∧ SenderAdmitted s t p f
               ∧ NoticedOnly s t ∧ OnlyChanges [.ports, .roster, .events, .bays] s t
               ∧ BayJoined s t b ⟨.serviceWrite, s.reqOf p 43 f, none, none, first, f.argB.toNat, f.body⟩)))))
  ∧ ∀ (s : State) (b : BayId),
      ((s.bay b).inFlight ≠ none ∨ (s.bay b).queue = [] ∨ (s.bay b).state = .absent ∨ (s.bay b).state = .failed →
        exec (.issue b) s = .next s)
      ∧ ∀ x rest, (s.bay b).inFlight = none → (s.bay b).queue = x :: rest →
          (s.bay b).state ≠ .absent → (s.bay b).state ≠ .failed →
          ∃ t, exec (.issue b) s = .next t ∧ OnlyChanges [.bays] s t
            ∧ ∀ c, t.bay c = if c = b.val then { s.bay b with
                  queue := rest, seq := (s.bay b).seq + 1, inFlight := some (justIssued x ((s.bay b).seq + 1)) }
                else s.bay c

/-- The bay after its transfer in flight ended with these timeouts: the head of its queue, if any, is issued. -/
def bayNext (y : Bay) (timeouts : Nat) : Bay :=
  match y.queue with
  | [] => { y with inFlight := none, timeouts := timeouts }
  | x :: rest => { y with
      queue := rest, seq := y.seq + 1, inFlight := some (justIssued x (y.seq + 1)), timeouts := timeouts }

/-- The loan record after one of its transfers in flight ended (R45). -/
def loanAfterEnd (l : LoanRec) (write failed : Bool) : LoanRec :=
  { l with
    outstanding := l.outstanding - 1
    writes := if write then min (l.writes + 1) 65535 else l.writes
    doubtful := l.doubtful || (write && failed) }

/-- The timeouts of a bay after a report (R72, R73). -/
def timeoutsAfter (y : Bay) (o : DiskOutcome) : Nat :=
  match o with
  | .success _ => 0
  | .mediaError => y.timeouts

/-- The status of a transfer that a report ends (R72, R73). -/
def statusOf (o : DiskOutcome) : Status :=
  match o with
  | .success _ => .ok
  | .mediaError => .bayError

/-- The data that a report of success brings. -/
def dataOf (o : DiskOutcome) : Option (List Byte) :=
  match o with
  | .success data => some data
  | .mediaError => none

/-- The OK reply of a completed transfer (R72, R152): data for the kinds that read, and the generation and torn mark of
its extent for a loan transfer or an OPEN READ. -/
def okReply (s : State) (x : Transfer) (data : List Byte) : OutFrame :=
  match x.kind with
  | .read => ⟨false, 5, .ok, x.req.node, x.req.tag, (s.pair (x.extent.getD 0)).torn, x.req.passed, none, 0, 0, 0, 0,
      (s.pair (x.extent.getD 0)).gen, 0, [.data data]⟩
  | .write => ⟨false, 6, .ok, x.req.node, x.req.tag, (s.pair (x.extent.getD 0)).torn, x.req.passed, none, 0, 0, 0, 0,
      (s.pair (x.extent.getD 0)).gen, 0, []⟩
  | .openRead => ⟨false, 7, .ok, x.req.node, x.req.tag, (s.pair (x.extent.getD 0)).torn, x.req.passed, none, 0, 0, 0, 0,
      (s.pair (x.extent.getD 0)).gen, 0, [.data data]⟩
  | .serviceRead => ⟨false, 42, .ok, x.req.node, x.req.tag, false, x.req.passed, none, 0, 0, 0, 0, 0, 0, [.data data]⟩
  | .serviceWrite => ⟨false, 43, .ok, x.req.node, x.req.tag, false, x.req.passed, none, 0, 0, 0, 0, 0, 0, []⟩

/-- Bay `b` after the entry test (R82): in SERVICE, its owed reply gone, where it was SERVICE_PENDING and its extents now
hold no loan and no open read. -/
def bayTested (s t : State) (b : Nat) (y : Bay) : Bay :=
  if y.state = .servicePending ∧ ∀ e ∈ s.bayExtents b, t.loansOn e = [] ∧ (t.xl e).openReads = 0 then
    { y with state := .service, serviceOwed := none }
  else y

/-- What each end of the transfer in flight at a bay leaves (R72 to R75): its one reply, if none was sent before, with what
a success brings; the next transfer issued; and, where the bay enters SERVICE, its owed SERVICE BAY answered OK. -/
def InFlightEnded (s t : State) (b : BayId) (fl : InFlight) (st : Status) (data : Option (List Byte)) (timeouts : Nat) :
    Prop :=
  (∀ c, t.bay c = if c = b.val then bayTested s t b (bayNext (s.bay b) timeouts) else s.bay c)
  ∧ ((t.bay b).state ≠ (s.bay b).state → ∀ q, (s.bay b).serviceOwed = some q → Answered s t q .ok)
  ∧ (fl.replySent = false → Answered s t fl.transfer.req st
      ∧ ∀ d, data = some d → fl.transfer.req.code = (okReply s fl.transfer d).code →
          AnsweredWith t fl.transfer.req (okReply s fl.transfer d))

/-- A transfer whose reply was sent at a Lending Reset ends without another (R74, R89). -/
def NoSecondReply (s t : State) (b : BayId) (fl : InFlight) : Prop :=
  fl.replySent = true → (t.bay b).state = (s.bay b).state → t.ports = s.ports ∧ t.roster = s.roster

/-- At such an end no node record changes but by the tag of a reply that no port can take (R163). -/
def EndKeepsNodes (s t : State) (b : BayId) (fl : InFlight) : Prop :=
  RosterAfter s t (fun q => fl.replySent = false ∧ q = fl.transfer.req ∨ (s.bay b).serviceOwed = some q) (fun _ r => r)

/-- The end of a READ or WRITE in flight of a live loan `l` that is not CLOSING (R45). -/
def LoanTransferEnds (s t : State) (b : BayId) (fl : InFlight) (h : Handle) (l : LoanRec) (st : Status)
    (data : Option (List Byte)) (timeouts : Nat) : Prop :=
  InFlightEnded s t b fl st data timeouts ∧ OnlyChanges [.ports, .roster, .loans, .bays] s t ∧ EndKeepsNodes s t b fl
  ∧ (∀ n, t.loan n = if n = h.slot then
        loanAfterEnd l (decide (fl.transfer.kind = .write)) (decide (st ≠ .ok)) else s.loan n)
  ∧ t.loans.extents = s.loans.extents ∧ t.loans.tableWait = s.loans.tableWait ∧ NoSecondReply s t b fl

/-- The end of the last transfer of a CLOSING loan `l` (R37, R38, R45): the loan is freed with the writes and doubt that
then stand; the transfer's reply, the CHANGE notice of a publication and the release reply owed leave in this order. -/
def LastTransferEnds (s t : State) (b : BayId) (fl : InFlight) (h : Handle) (l : LoanRec) (cause : EndCause) (st : Status)
    (data : Option (List Byte)) (timeouts : Nat) : Prop :=
  ∃ u : State, u = setLoan h.slot (loanAfterEnd l (decide (fl.transfer.kind = .write)) (decide (st ≠ .ok))) s
  ∧ InFlightEnded s t b fl st data timeouts
  ∧ LoanFreed u t h.slot (decide (cause ≠ .released) || (u.loan h.slot).doubtful)
  ∧ WatchesFired s t l.extent (decide (l.mode = .sole) && decide (0 < (u.loan h.slot).writes))
  ∧ (l.mode = .sole → 0 < (u.loan h.slot).writes →
      ChangeTold s t [l.extent] t.pair (loanReason (decide (cause ≠ .released) || (u.loan h.slot).doubtful)))
  ∧ (l.mode = .sole → (decide (cause ≠ .released) || (u.loan h.slot).doubtful) = true →
      Recorded s t .torn ⟨l.extent, 0, (t.pair l.extent).gen.toNat⟩)
  ∧ t.map.records = s.map.records ∧ t.loans.extents = s.loans.extents ∧ t.loans.tableWait = s.loans.tableWait
  ∧ (∀ q, l.releaseOwed = some q → Answered s t q (if cause = .released then .ok else .loanEnded)
      ∧ (fl.replySent = false →
          RepliedInOrder s t fl.transfer.req st q (if cause = .released then .ok else .loanEnded))
      ∧ (l.mode = .sole → 0 < (u.loan h.slot).writes → (s.port q.port).up = true → q.round = (s.port q.port).round →
          ChangeBefore s t [l.extent] t.pair (loanReason (decide (cause ≠ .released) || (u.loan h.slot).doubtful)) q.port
            (ReplyTo q (if cause = .released then .ok else .loanEnded))))
  ∧ RosterAfter s t (fun q => q = fl.transfer.req ∨ l.releaseOwed = some q ∨ (s.bay b).serviceOwed = some q)
      (fun n r => { r with held := if n = l.holder ∧ n ≠ 0 then r.held - 1 else r.held })
  ∧ OnlyChanges [.ports, .roster, .map, .loans, .bays, .watches, .events, .choices] s t

/-- The end of an OPEN READ in flight of extent `e` (R74). -/
def OpenReadEnds (s t : State) (b : BayId) (fl : InFlight) (e : Nat) (st : Status) (data : Option (List Byte))
    (timeouts : Nat) : Prop :=
  InFlightEnded s t b fl st data timeouts ∧ OnlyChanges [.ports, .roster, .loans, .bays, .choices] s t
  ∧ EndKeepsNodes s t b fl
  ∧ ((∀ r, s.extent e = some r → (s.bay r.bay).state ≠ .servicePending) → t.choices = s.choices)
  ∧ (∀ x, t.xl x = if x = e then { s.xl x with openReads := (s.xl x).openReads - 1 } else s.xl x)
  ∧ t.loans.table = s.loans.table ∧ t.loans.tableWait = s.loans.tableWait ∧ NoSecondReply s t b fl

/-- Nothing but an entry into service of bay `b` waits on the end of a loan or open read on the extent. -/
def QuietBut (s : State) (b e : Nat) : Prop :=
  s.loader.state ≠ .draining ∧ ∀ r, s.extent e = some r → (s.bay r.bay).state = .servicePending → r.bay = b

/-- OPERATION_END_REPORT: a report with another number is discarded. One with the number of the READ or WRITE in flight of a
live loan ends it: OK, with data for a READ and the pair, or BAY_ERROR; the loan takes R45's bookkeeping, success clears the
timeouts, and the next transfer is issued. The last transfer of a CLOSING loan frees the loan after that, with the writes
and doubt then standing; its publication is told, and a release reply owed follows the transfer's reply and that notice.
The end of an OPEN READ lowers its extent's count, with data and the pair on success; that of a SERVICE READ gives the
data. At a SERVICE_PENDING bay the entry test follows. A reply already sent at a Lending Reset is not sent again. Success of
a SERVICE WRITE steps the generation of each extent its span covers, leaves the torn mark, fires their watches with CHANGE
notices of reason SERVICE, and then answers OK; it does none of this where its reply was sent before, and a media error
steps none. (The loan and OPEN READ ends are said where nothing else waits on them.) -/
def Obligations.OperationEnds : Prop :=
  (∀ (s : State) (b : BayId) (seq : BitVec 16) (o : DiskOutcome),
     ((∀ fl, (s.bay b).inFlight = some fl → fl.seq ≠ seq) → exec (.operationEndReport b seq o) s = .next s)
     ∧ ∀ (fl : InFlight) (h : Handle) (l : LoanRec), (s.bay b).inFlight = some fl → fl.seq = seq →
         fl.transfer.handle = some h → (fl.transfer.kind = .read ∨ fl.transfer.kind = .write) →
         l = s.loan h.slot → l.issue = h.issue → ((s.bay b).state = .ready ∨ (s.bay b).state = .servicePending) →
         (l.state = .held ∨ l.state = .upgrading →
           ∃ t, exec (.operationEndReport b seq o) s = .next t
             ∧ LoanTransferEnds s t b fl h l (statusOf o) (dataOf o) (timeoutsAfter (s.bay b) o))
         ∧ (l.state = .closing → l.outstanding ≤ 1 → (s.xl l.extent).queue = [] → s.loans.tableWait = [] →
             QuietBut s b l.extent → ∀ cause, l.cause = some cause →
             ∃ t, exec (.operationEndReport b seq o) s = .next t
               ∧ LastTransferEnds s t b fl h l cause (statusOf o) (dataOf o) (timeoutsAfter (s.bay b) o)))
  ∧ (∀ (s : State) (b : BayId) (fl : InFlight) (o : DiskOutcome), (s.bay b).inFlight = some fl →
      fl.transfer.handle = none →
      (∀ e, fl.transfer.kind = .openRead → fl.transfer.extent = some e →
        ((s.bay b).state = .ready ∨ (s.bay b).state = .servicePending) → QuietBut s b e →
        ∃ t, exec (.operationEndReport b fl.seq o) s = .next t
          ∧ OpenReadEnds s t b fl e (statusOf o) (dataOf o) (timeoutsAfter (s.bay b) o))
      ∧ (fl.transfer.kind = .serviceRead → (s.bay b).state = .service →
        ∃ t, exec (.operationEndReport b fl.seq o) s = .next t ∧ OnlyChanges [.ports, .roster, .bays] s t
          ∧ InFlightEnded s t b fl (statusOf o) (dataOf o) (timeoutsAfter (s.bay b) o) ∧ NoSecondReply s t b fl
          ∧ EndKeepsNodes s t b fl))
  ∧ ∀ (s : State) (b : BayId) (fl : InFlight) (data : List Byte) (span : List Nat), (s.bay b).inFlight = some fl →
      fl.transfer.kind = .serviceWrite → fl.transfer.handle = none → (s.bay b).state = .service →
      span = s.lookupSpan b fl.transfer.first fl.transfer.count →
      (fl.replySent = false →
        ∃ t, exec (.operationEndReport b fl.seq (.success data)) s = .next t
          ∧ InFlightEnded s t b fl .ok (some data) 0 ∧ EndKeepsNodes s t b fl
          ∧ (∀ e, t.pair e = if e ∈ span then ⟨(s.pair e).gen + 1, (s.pair e).torn⟩ else s.pair e)
          ∧ t.map.records = s.map.records
          ∧ t.watches = s.watches.map (fun x => (x.1,
              if x.2.extent ∈ span then { x.2 with state := .fired } else x.2))
          ∧ ChangeTold s t span t.pair 3
          ∧ ((s.port fl.transfer.req.port).up = true →
              fl.transfer.req.round = (s.port fl.transfer.req.port).round →
              ChangeBefore s t span t.pair 3 fl.transfer.req.port (ReplyTo fl.transfer.req .ok))
          ∧ OnlyChanges [.ports, .roster, .map, .bays, .watches, .events, .choices] s t)
      ∧ (fl.replySent = true →
        ∃ t, exec (.operationEndReport b fl.seq (.success data)) s = .next t ∧ OnlyChanges [.bays] s t
          ∧ ∀ c, t.bay c = if c = b.val then bayNext (s.bay b) 0 else s.bay c)
      ∧ ∃ t, exec (.operationEndReport b fl.seq .mediaError) s = .next t
          ∧ OnlyChanges [.ports, .roster, .bays] s t
          ∧ InFlightEnded s t b fl .bayError none (s.bay b).timeouts ∧ NoSecondReply s t b fl
          ∧ EndKeepsNodes s t b fl

/-- What the loss or failure of bay `b` meets is tied to the bay: no claim waits for a slot elsewhere, no drain and no
other entry into service goes on, the transfers at the bay belong to live loans on its extents, no OPEN READ has a handle,
each loan there has outstanding exactly its transfers at the bay, and an UPGRADE entry names a loan of its own extent. -/
def BayTied (s : State) (b : Nat) : Prop :=
  s.tables ∧ s.loans.tableWait = [] ∧ s.loader.state ≠ .draining ∧ (∀ c, c ≠ b → (s.bay c).state ≠ .servicePending)
    ∧ (∀ x, (x ∈ (s.bay b).queue ∨ ∃ fl, (s.bay b).inFlight = some fl ∧ fl.transfer = x) →
        (x.kind = .openRead → x.handle = none)
        ∧ ∀ h, x.handle = some h → s.live h = true → (s.loan h.slot).extent ∈ s.bayExtents b)
    ∧ (∀ n, (s.loan n).state ≠ .free → (s.loan n).extent ∈ s.bayExtents b →
        (s.loan n).outstanding = (s.queuedOf n).length + if s.loanInFlight b ⟨n, (s.loan n).issue⟩ then 1 else 0)
    ∧ ∀ e ∈ s.bayExtents b, ∀ c ∈ (s.xl e).queue, ∀ h, c.kind = .upgrade h → (s.loan h.slot).extent = e

/-- What R76 and R77 leave of the lending on bay `b`: its claims answered BAY_DOWN, its loans freed with cause REVOKED,
their SOLE extents marked torn and stepped where the loan had writes or a WRITE in flight, its queued transfers
answered `st`, an owed SERVICE BAY answered BAY_DOWN, and the counts lowered. -/
def BayCleared (s t : State) (b : Nat) (why : Reason) (st : Status) : Prop :=
  (∀ e ∈ s.bayExtents b, ∀ c ∈ (s.xl e).queue, Answered s t c.req .bayDown)
  ∧ (∀ e, (t.xl e).queue = if e ∈ s.bayExtents b then [] else (s.xl e).queue)
  ∧ (∀ e, (t.xl e).drainMark = (s.xl e).drainMark ∧ (t.xl e).openReads = (s.xl e).openReads -
      (((s.bay b).queue ++ ((s.bay b).inFlight.map (·.transfer)).toList).filter
        (fun x => decide (x.kind = .openRead) && decide (x.extent = some e))).length)
  ∧ (∀ n, t.loan n = if (s.loan n).state ≠ .free ∧ (s.loan n).extent ∈ s.bayExtents b then
        LoanRec.free ((s.loan n).issue + 1) else s.loan n)
  ∧ (∀ x ∈ (s.bay b).queue, Answered s t x.req st)
  ∧ (∀ q, (s.bay b).serviceOwed = some q → Answered s t q .bayDown)
  ∧ (∀ n q, (s.loan n).state ≠ .free → (s.loan n).extent ∈ s.bayExtents b → (s.loan n).releaseOwed = some q →
      Answered s t q .loanEnded)
  ∧ (∀ n, (s.loan n).state ≠ .free → (s.loan n).extent ∈ s.bayExtents b → (s.loan n).mode = .sole →
      s.loansOn (s.loan n).extent = [(n, s.loan n)] →
      t.pair (s.loan n).extent = ⟨if 0 < (s.loan n).writes ∨ (∃ fl, (s.bay b).inFlight = some fl
            ∧ fl.transfer.handle = some ⟨n, (s.loan n).issue⟩ ∧ fl.transfer.kind = .write) then
          (s.pair (s.loan n).extent).gen + 1 else (s.pair (s.loan n).extent).gen, true⟩)
  ∧ (∀ e, (∀ n, (s.loan n).state ≠ .free → (s.loan n).extent ∈ s.bayExtents b → (s.loan n).mode = .sole →
      (s.loan n).extent ≠ e) → t.pair e = s.pair e)
  ∧ t.watches = s.watches.map (fun x => (x.1,
      if s.loans.table.any (fun y => decide (y.2.state ≠ .free) && decide (y.2.extent = x.2.extent)
          && decide (y.2.extent ∈ s.bayExtents b) && decide (y.2.mode = .sole)
          && (decide (0 < y.2.writes) || decide (∃ fl ∈ (s.bay b).inFlight,
            fl.transfer.handle = some ⟨y.1, y.2.issue⟩ ∧ fl.transfer.kind = .write)))
      then { x.2 with state := .fired } else x.2))
  ∧ t.map.records = s.map.records ∧ t.loans.tableWait = s.loans.tableWait
  ∧ RosterAfter s t (AwaitsReply s) (fun n r => { r with
      held := if n = 0 then r.held else r.held - (s.loans.table.filter (fun y => decide (y.2.state ≠ .free)
        && decide (y.2.holder = n) && decide (y.2.extent ∈ s.bayExtents b))).length
      waiting := r.waiting - s.waitingAt (s.bayExtents b) n })
  ∧ ∀ n r p, (s.loan n).state ≠ .free → (s.loan n).extent ∈ s.bayExtents b → (s.loan n).holder ≠ 0 →
      s.node (s.loan n).holder = some r → r.learned = some p → (s.port p).up = true →
      (s.port p).notices + s.loans.table.length + 2 * s.watches.length + 16 < 64 →
      (⟨revokedNotice (s.loan n).holder ⟨n, (s.loan n).issue⟩ (s.loan n).extent why, false⟩ : Ready)
        ∈ (t.port p).egress

/-- TRANSFER_TICK counts one tick on every transfer in flight; where one reaches its 32nd, its TRANSFER_TIMEOUT follows in
the same step. TRANSFER_TIMEOUT ends a transfer at 32 ticks with BAY_TIMEOUT, as the report of its end does: the timeouts
rise, and a live loan's bookkeeping, the end of a CLOSING loan, an OPEN READ's count, the entry test and the next issue
follow. At the third in a row the bay is FAILED, a SERVICE_PENDING one too, its owed SERVICE BAY answered BAY_DOWN: its
claims are refused BAY_DOWN, its loans revoked with reason BAY_FAILED and freed, its queued transfers answered BAY_DOWN,
and BAY_FAILED is raised. (Ends are said where nothing else waits on them, a failure with the loan in flight not CLOSING.
TRANSFER_TIMEOUT as a command of its own: assumption 3.) -/
def Obligations.TransferTicks : Prop :=
  (∀ s : State, (∀ b fl, (s.bay b).inFlight = some fl → fl.ticks < 31) →
    ∃ t, exec .transferTick s = .next t ∧ OnlyChanges [.bays] s t
      ∧ ∀ b, t.bay b = { s.bay b with
          inFlight := (s.bay b).inFlight.map (fun fl => { fl with ticks := fl.ticks + 1 }) })
  ∧ (∀ (s : State) (b : BayId) (fl : InFlight), (s.bay b).inFlight = some fl → fl.ticks = 31 →
      (∀ c, c ≠ b.val → ∀ x, (s.bay c).inFlight = some x → x.ticks < 31) →
      ∃ u, OnlyChanges [.bays, .choices] s u
        ∧ (∀ c, u.bay c = { s.bay c with
            inFlight := (s.bay c).inFlight.map (fun x => { x with ticks := x.ticks + 1 }) })
        ∧ exec .transferTick s = exec (.transferTimeout b) u)
  ∧ ∀ (s : State) (b : BayId),
    ((∀ fl, (s.bay b).inFlight = some fl → fl.ticks < 32) → exec (.transferTimeout b) s = .next s)
    ∧ ∀ (fl : InFlight), (s.bay b).inFlight = some fl → 32 ≤ fl.ticks →
        ((s.bay b).timeouts < 2 →
          (∀ (h : Handle) (l : LoanRec), fl.transfer.handle = some h → l = s.loan h.slot → l.issue = h.issue →
            (fl.transfer.kind = .read ∨ fl.transfer.kind = .write) →
            ((s.bay b).state = .ready ∨ (s.bay b).state = .servicePending) →
            (l.state = .held ∨ l.state = .upgrading →
              ∃ t, exec (.transferTimeout b) s = .next t
                ∧ LoanTransferEnds s t b fl h l .bayTimeout none ((s.bay b).timeouts + 1))
            ∧ (l.state = .closing → l.outstanding ≤ 1 → (s.xl l.extent).queue = [] → s.loans.tableWait = [] →
                QuietBut s b l.extent → ∀ cause, l.cause = some cause →
                ∃ t, exec (.transferTimeout b) s = .next t
                  ∧ LastTransferEnds s t b fl h l cause .bayTimeout none ((s.bay b).timeouts + 1)))
          ∧ (∀ e, fl.transfer.handle = none → fl.transfer.kind = .openRead → fl.transfer.extent = some e →
              ((s.bay b).state = .ready ∨ (s.bay b).state = .servicePending) → QuietBut s b e →
              ∃ t, exec (.transferTimeout b) s = .next t
                ∧ OpenReadEnds s t b fl e .bayTimeout none ((s.bay b).timeouts + 1))
          ∧ (fl.transfer.handle = none → (fl.transfer.kind = .serviceRead ∨ fl.transfer.kind = .serviceWrite) →
              (s.bay b).state = .service →
              ∃ t, exec (.transferTimeout b) s = .next t ∧ OnlyChanges [.ports, .roster, .bays] s t
                ∧ InFlightEnded s t b fl .bayTimeout none ((s.bay b).timeouts + 1) ∧ NoSecondReply s t b fl
                ∧ EndKeepsNodes s t b fl))
        ∧ ((fl.transfer.kind = .serviceRead ∨ fl.transfer.kind = .serviceWrite) → fl.transfer.handle = none →
          (s.bay b).state = .service → (s.bay b).timeouts = 2 → (s.bay b).queue = [] → s.bayExtents b = [] →
          ∃ t, exec (.transferTimeout b) s = .next t ∧ OnlyChanges [.ports, .roster, .bays, .events] s t
            ∧ (∀ c, t.bay c = if c = b.val then
                  { s.bay b with state := .failed, inFlight := none, timeouts := 3, serviceOwed := none }
                else s.bay c)
            ∧ (fl.replySent = false → Answered s t fl.transfer.req .bayTimeout)
            ∧ EndKeepsNodes s t b fl ∧ Recorded s t .bayFailed ⟨b, 0, 0⟩)
        ∧ (BayTied s b → (s.bay b).timeouts = 2 →
          ((s.bay b).state = .ready ∨ (s.bay b).state = .service
            ∨ (s.bay b).state = .servicePending ∧ ∃ h, fl.transfer.handle = some h ∧ s.live h = true) →
          (∀ h, fl.transfer.handle = some h → s.live h = true → (s.loan h.slot).state ≠ .closing) →
          ∃ t, exec (.transferTimeout b) s = .next t ∧ BayCleared s t b .bayFailed .bayDown
            ∧ (∀ c, t.bay c = if c = b.val then
                  { s.bay b with
                    state := .failed, queue := [], inFlight := none, timeouts := 3, serviceOwed := none }
                else s.bay c)
            ∧ (fl.replySent = false → Answered s t fl.transfer.req .bayTimeout)
            ∧ Recorded s t .bayFailed ⟨b, 0, 0⟩
            ∧ OnlyChanges [.ports, .roster, .map, .loans, .bays, .watches, .events, .choices] s t)

/-- BAY_LINK_DOWN takes a bay to ABSENT with capacity and timeouts 0, an owed SERVICE BAY answered BAY_DOWN, and
BAY_PRESENCE raised: its claims are refused BAY_DOWN, its loans revoked with reason BAY_LOST and, once the transfer in
flight has ended BAY_LOST, all freed, and its queued transfers answered BAY_LOST. An ABSENT bay stays as it is.
BAY_LINK_UP makes an ABSENT bay READY with the disk's capacity, a report above 2^36 recorded as 2^36, and raises
BAY_PRESENCE; on another bay a link-down comes first. (With lending on the bay, said where nothing else waits on it. A link-down on an ABSENT bay: assumption 31.) -/
def Obligations.BayLinks : Prop :=
  ∀ (s : State) (b : BayId),
    ((s.bay b).state = .absent → exec (.bayLinkDown b) s = .next s)
    ∧ ((s.bay b).state ≠ .absent → s.bayExtents b = [] → (s.bay b).queue = [] → (s.bay b).inFlight = none →
      ∃ t, exec (.bayLinkDown b) s = .next t ∧ OnlyChanges [.ports, .roster, .bays, .events] s t
        ∧ (∀ c, t.bay c = if c = b.val then
              { s.bay b with state := .absent, capacity := 0, timeouts := 0, serviceOwed := none } else s.bay c)
        ∧ (∀ q, (s.bay b).serviceOwed = some q → Answered s t q .bayDown)
        ∧ RosterAfter s t (fun q => (s.bay b).serviceOwed = some q) (fun _ r => r)
        ∧ Recorded s t .bayPresence ⟨b, 0, 0⟩)
    ∧ ((s.bay b).state ≠ .absent → BayTied s b →
      ∃ t, exec (.bayLinkDown b) s = .next t ∧ BayCleared s t b .bayLost .bayLost
        ∧ (∀ c, t.bay c = if c = b.val then
              { s.bay b with
                state := .absent, capacity := 0, queue := [], inFlight := none, timeouts := 0, serviceOwed := none }
            else s.bay c)
        ∧ (∀ fl, (s.bay b).inFlight = some fl → fl.replySent = false → Answered s t fl.transfer.req .bayLost)
        ∧ Recorded s t .bayPresence ⟨b, 0, 0⟩
        ∧ OnlyChanges [.ports, .roster, .map, .loans, .bays, .watches, .events, .choices] s t)
    ∧ (∀ capacity, (s.bay b).state = .absent →
      ∃ t, exec (.bayLinkUp b capacity) s = .next t ∧ OnlyChanges [.ports, .bays, .events] s t
        ∧ (∀ c, t.bay c = if c = b.val then
              { s.bay b with state := .ready, capacity := min capacity (2 ^ 36), timeouts := 0 } else s.bay c)
        ∧ Recorded s t .bayPresence ⟨b, 1, 0⟩ ∧ NoticesOnly s t)
    ∧ ∀ capacity u, (s.bay b).state ≠ .absent → exec (.bayLinkDown b) s = .next u →
        exec (.bayLinkUp b capacity) s = exec (.bayLinkUp b capacity) u

/-! ### Reading -/

/-- READ LOAN, READ EXTENT, NODE STATUS, READ BAY, READ WATCHES, READ FENCES, LIST HELD, READ NODE, READ CLOCK and READ
EVENTS answer OK with the items of their rules, field by field, taken from the state they find (READ NODE and READ EVENTS
from the admitted state), and change nothing. (Fields that do not apply are zero: assumption 11.) -/
def Obligations.ReadRequests : Prop :=
  (∀ (s : State) (p : PortId) (f : Frame),
     (Taken s p 10 f (legalPlain f) → ∀ nr, s.node f.node.toNat = some nr →
       ∃ t, exec (.nodeStatus p f) s = .next t ∧ Done s t p f { plainReply 10 f .ok with
         argB := nr.waiting
         body := (s.loansOf f.node.toNat).map (fun x => .loanStatus ⟨x.1, x.2.issue⟩ x.2.extent x.2.mode.code
           x.2.state.code x.2.cls x.2.remaining x.2.outstanding) } [])
     ∧ (s.oneAuthority →
       (Taken s p 33 f (legalReadLoan f) → ∀ l, l = s.loan (slotOf f) →
         ∃ t, exec (.readLoan p f) s = .next t ∧ Done s t p f { plainReply 33 f .ok with
           body := [.loanRecord (slotOf f) l.issue.toNat l.state.code l.holder l.extent l.mode.code l.cls l.remaining
             l.writes (markCode l.doubtful) l.outstanding (causeCode l.cause) (causeReason l.cause)
             (markCode l.releaseOwed.isSome) (l.releaseOwed.elim 0 (·.tag))
             (l.releaseOwed.elim 0 (·.port.val))] } [])
       ∧ (Taken s p 34 f (legalByExtent f) →
         (s.extent (extentOf f) = none →
           ∃ t, exec (.readExtent p f) s = .next t ∧ Done s t p f (plainReply 34 f .noExtent) [])
         ∧ ∀ (r : ExtentRec) (loans : List (Nat × LoanRec)) (queue : List ClaimEntry) (nh nq : Nat),
           s.extent (extentOf f) = some r → loans = s.loansOn (extentOf f) → queue = (s.xl (extentOf f)).queue →
           nq = min queue.length 742 → nh = min loans.length (742 - nq) →
           ∃ t, exec (.readExtent p f) s = .next t ∧ Done s t p f { plainReply 34 f .ok with
             generation := (s.pair (extentOf f)).gen, torn := (s.pair (extentOf f)).torn
             body := [.extentRecord (extentOf f) r.bay r.base r.k
                 (4 * markCode r.write + 2 * markCode r.share + markCode r.openR) r.ceiling r.policy.code
                 (match s.effective r with
                   | .lent v => v.code
                   | .closed _ => 6)
                 (match s.effective r with
                   | .lent _ => 0
                   | .closed why => why.code),
               .extentLoan (s.summary (extentOf f)).code loans.length
                 ((loans.find? (fun x => decide (x.2.state = .upgrading))).map (fun x => ⟨x.1, x.2.issue⟩))
                 (markCode (s.xl (extentOf f)).drainMark) (s.xl (extentOf f)).openReads queue.length
                 (markCode (decide (extentOf f ∈ s.loans.tableWait))) nh nq]
               ++ (loans.take nh).map (fun x => .holder ⟨x.1, x.2.issue⟩ x.2.holder x.2.mode.code x.2.state.code
                 x.2.cls x.2.remaining x.2.outstanding)
               ++ (queue.take nq).map (fun c => .queue c.req.node c.req.tag c.kind.code c.cls c.wait c.req.port.val
                 (match c.kind with
                   | .upgrade h => some h
                   | .shared | .sole => none)) } [])
       ∧ (Taken s p 45 f (legalByBay f) → ∀ y, y = s.bay (extentOf f) →
         ∃ t, exec (.readBay p f) s = .next t ∧ Done s t p f { plainReply 45 f .ok with
           body := (match y.inFlight with
               | some fl => .bay (extentOf f) y.state.code y.capacity y.timeouts y.queue.length
                   (markCode y.serviceOwed.isSome) 1 fl.transfer.kind.code fl.transfer.req.node fl.transfer.req.tag
                   fl.transfer.handle fl.transfer.first fl.transfer.count fl.ticks (markCode fl.replySent)
               | none => .bayIdle (extentOf f) y.state.code y.capacity y.timeouts y.queue.length
                   (markCode y.serviceOwed.isSome))
             :: y.queue.map (fun x => .transfer x.kind.code x.req.node x.req.tag x.handle x.extent x.first x.count) }
           [])
       ∧ (Taken s p 46 f (legalByExtent f) →
         ∃ t, exec (.readWatches p f) s = .next t ∧ Done s t p f { plainReply 46 f .ok with
           generation := (s.pair (extentOf f)).gen, torn := (s.pair (extentOf f)).torn
           body := (s.watches.filter (fun x => decide (x.2.extent = extentOf f))).map
             (fun x => .watch x.2.node x.2.latched x.2.state.code) } [])))
  ∧ ∀ (s : State) (p : PortId) (f : Frame), s.oneAuthority →
      (Taken s p 49 f (legalPlain f) →
        ∃ t, exec (.readFences p f) s = .next t ∧ Done s t p f { plainReply 49 f .ok with
          argB := s.fences.held.length
          body := (List.range 8).map (fun i => .fence i (s.fence i).bay (s.fence i).base (s.fence i).k
            (s.fence i).kind.code (s.fence i).action.code (markCode (s.fence i).localEnable)
            (markCode (s.fence i).globalEnable) (markCode (s.fence i).hit)
            (markCode ((s.fence i).localEnable || (s.fence i).globalEnable))) } [])
      ∧ (Taken s p 50 f (legalPlain f) →
        ∃ t, exec (.listHeld p f) s = .next t ∧ Done s t p f { plainReply 50 f .ok with
          body := s.fences.held.map (fun x => match x.2.args with
            | .claim e mode _ _ => .heldClaim x.1 x.2.req.node x.2.req.tag x.2.req.code e mode.code
                x.2.req.port.val x.2.remaining x.2.fences
            | .transfer _ slot issue e offset count _ => .held x.1 x.2.req.node x.2.req.tag x.2.req.code e
                (some ⟨slot, issue⟩) 0 offset count x.2.req.port.val x.2.remaining x.2.fences
            | .openRead e offset count => .held x.1 x.2.req.node x.2.req.tag x.2.req.code e none 0 offset count
                x.2.req.port.val x.2.remaining x.2.fences) } [])
      ∧ (Taken s p 58 f (legalByNode f) →
        match s.nodeAfter p f (offsetOf f) with
        | none => ∃ t, exec (.readNode p f) s = .next t ∧ Done s t p f (plainReply 58 f .unknownNode) []
        | some r => ∃ t, exec (.readNode p f) s = .next t ∧ Done s t p f { plainReply 58 f .ok with
            body := [.node (offsetOf f) r.role.code r.state.code r.learned r.quota (markCode r.write) r.ceiling r.held
              r.waiting r.tags] } [])
      ∧ (Taken s p 63 f (legalPlain f) →
        ∃ t, exec (.readClock p f) s = .next t ∧ Done s t p f { plainReply 63 f .ok with
          body := [.clock s.clock.count.toNat s.clock.run.code (orderCode s.clock.order) (s.units 0) (s.units 1)
            (s.units 2) (s.units 3)] } [])
      ∧ (Taken s p 67 f (legalPlain f) →
        ∃ t, exec (.readEvents p f) s = .next t ∧ Done s t p f { plainReply 67 f .ok with
          body := (List.range 16).map (fun k => .eventRecord k (markCode (t.event k).flag)
            (markCode (t.event k).noticed) (t.event k).level (markCode (t.event k).detail.isSome)
            ((t.event k).detail.elim 0 (·.a)) ((t.event k).detail.elim 0 (·.b))
            ((t.event k).detail.elim 0 (·.c))) } [])

/-! ### Resets -/

/-- FULL_RESET on every state gives every block its full-reset contents: ports DOWN in round 0, the one AUTHORITY record 4095, an
empty map at generation 0, every slot FREE at issue 0, the clock RUNNING at 0 with units 40, 60, 150, 225, every bay ABSENT,
no watch, held request or fence enabled, the loader IDLE, no flag and level 0. The commands still waiting stay (assumption
21). -/
def Obligations.FullReset : Prop :=
  ∀ s : State, ∃ t, exec .fullReset s = .next t
    ∧ (∀ p, t.port p = ⟨false, 0, 0, 0, []⟩)
    ∧ (∀ n, t.node n = if n = 4095 then some ⟨.authority, .enrolled, none, 16, false, 0, 0, 0, 0⟩ else none)
    ∧ (∀ e, t.extent e = none ∧ t.pair e = ⟨0, false⟩ ∧ t.xl e = ⟨[], false, 0⟩)
    ∧ (∀ n, t.loan n = LoanRec.free 0) ∧ t.loans.tableWait = []
    ∧ t.clock.count = 0 ∧ t.clock.run = .running ∧ t.clock.order = none
    ∧ t.units 0 = 40 ∧ t.units 1 = 60 ∧ t.units 2 = 150 ∧ t.units 3 = 225
    ∧ (∀ b, t.bay b = ⟨.absent, 0, [], none, 0, 0, none⟩) ∧ t.watches = []
    ∧ (∀ i, t.fence i = ⟨0, 0, 0, .soleClaim, .refuse, false, false, false⟩) ∧ t.fences.held = []
    ∧ t.loader = ⟨.idle, [], none, none, none, none, none, false, [], none⟩
    ∧ (∀ k, t.event k = ⟨false, false, 0, none⟩) ∧ t.events.mask = 0 ∧ t.pending = s.pending

/-- LENDING RESET on every state empties the claim queues, the table-wait list, the bay queues, the Held List and the
Watch List, sets all held and waiting counts to 0, keeps clock and roster settings, and answers OK last. Every request it
ends is answered RESET and its tag leaves at once, and no other tag leaves; no EXPIRED and no REVOKED notice is made. With
no drain going on, a loan with its transfer in flight is detached (CLOSING, cause REVOKED with reason RESET, holder 0)
and every other loan is freed with that cause, a SOLE one marking its extent torn; the map's records, the fences with
their hits, the loader but for its owed reply, and each bay but for its queue, its owed reply and an entry into service
are kept. Of a switch that lends nothing it does nothing but answer OK. (The order of the parts, assumptions 13, 14 and
36, is not stated.) -/
def Obligations.LendingReset : Prop :=
  (∀ (s : State) (p : PortId) (f : Frame), s.oneAuthority → s.tables → Taken s p 68 f (legalPlain f) →
     ∃ t, exec (.lendingReset p f) s = .next t ∧ Ready.at t p (plainReply 68 f .ok)
       ∧ (∃ before, (t.port p).egress = before ++ [⟨plainReply 68 f .ok, true⟩])
       ∧ (∀ e, (t.xl e).queue = []) ∧ t.loans.tableWait = [] ∧ (∀ b, (t.bay b).queue = [])
       ∧ t.fences.held = [] ∧ t.watches = [] ∧ t.clock = s.clock
       ∧ (∀ n r, s.node n = some r → ∃ x, t.node n = some x ∧ x.held = 0 ∧ x.waiting = 0
           ∧ x.role = r.role ∧ x.quota = r.quota ∧ x.write = r.write ∧ x.ceiling = r.ceiling)
       ∧ (∀ q, AwaitsReply s q → AnsweredReset s t q)
       ∧ RosterAfter (s.admitted p 68 f) t (AwaitsReply s) (fun _ r => { r with held := 0, waiting := 0 })
       ∧ (∀ q, ∀ x ∈ (t.port q).egress, x.frame.notice = true →
           x ∈ (s.port q).egress ∨ x.frame.code = 98 ∨ x.frame.code = 99)
       ∧ (s.loader.state ≠ .draining → s.openReadsPlain →
         (∀ b x h, (x ∈ (s.bay b).queue ∨ ∃ fl, (s.bay b).inFlight = some fl ∧ fl.transfer = x) →
           x.handle = some h → s.live h = true → s.bayOf (s.loan h.slot).extent = b) →
         (∀ n, (s.loan n).state ≠ .free → t.loan n =
             if s.loanInFlight (s.bayOf (s.loan n).extent) ⟨n, (s.loan n).issue⟩ then
               { s.loan n with
                 state := .closing, cause := some (.revoked .reset), holder := 0, releaseOwed := none
                 outstanding := (s.loan n).outstanding - (s.queuedOf n).length }
             else LoanRec.free ((s.loan n).issue + 1))
         ∧ (∀ n, (s.loan n).state ≠ .free → (s.loan n).mode = .sole →
             s.loanInFlight (s.bayOf (s.loan n).extent) ⟨n, (s.loan n).issue⟩ = false →
             s.loansOn (s.loan n).extent = [(n, s.loan n)] →
             t.pair (s.loan n).extent = ⟨if 0 < (s.loan n).writes then (s.pair (s.loan n).extent).gen + 1
               else (s.pair (s.loan n).extent).gen, true⟩)
         ∧ (∀ e, (∀ n, (s.loan n).state ≠ .free → (s.loan n).mode = .sole → (s.loan n).extent ≠ e) →
             t.pair e = s.pair e)
         ∧ (∀ e, (t.xl e).drainMark = (s.xl e).drainMark ∧ (t.xl e).openReads = (s.xl e).openReads -
             (allBays.map (fun b => ((s.bay b).queue.filter
               (fun x => decide (x.kind = .openRead) && decide (x.extent = some e))).length)).sum)
         ∧ t.map.records = s.map.records ∧ t.fences.fences = s.fences.fences
         ∧ t.loader = { s.loader with commitOwed := none }
         ∧ ∀ b, ∃ st, t.bay b = { s.bay b with
               state := st, queue := [], serviceOwed := none
               inFlight := (s.bay b).inFlight.map (fun fl => { fl with replySent := true }) }
             ∧ ((s.bay b).state ≠ .servicePending → st = (s.bay b).state)
             ∧ ((s.bay b).state = .servicePending → st = .servicePending ∨ st = .service)))
  ∧ ∀ (s : State) (p : PortId) (f : Frame), s.oneAuthority → Taken s p 68 f (legalPlain f) →
      s.loans.table.all (fun x => decide (x.2.state = .free) && x.2.releaseOwed.isNone) = true →
      (∀ e, (s.xl e).queue = []) → s.loans.tableWait = [] →
      (∀ b, (s.bay b).queue = [] ∧ (s.bay b).inFlight = none ∧ (s.bay b).serviceOwed = none
        ∧ (s.bay b).state ≠ .servicePending) →
      s.fences.held = [] → s.watches = [] → s.loader.commitOwed = none →
      (∀ x ∈ s.roster, x.2.held = 0 ∧ x.2.waiting = 0) →
      ∃ t, exec (.lendingReset p f) s = .next t ∧ Done s t p f (plainReply 68 f .ok) [.choices]
end

