-- ==== Sys2Proof/Laws/State.lean ====
section
/-! SUPPORT. What each field and each reader shows after each update of the state; every line is true by `rfl`. -/

namespace Sys2Proof.Machine

set_option Elab.async false

section setPort_reads
variable (s : State) (p : PortId) (v : Port)

@[simp] theorem setPort_ports : (setPort p v s).ports = s.ports.set p v := rfl
@[simp] theorem setPort_roster : (setPort p v s).roster = s.roster := rfl
@[simp] theorem setPort_map : (setPort p v s).map = s.map := rfl
@[simp] theorem setPort_loans : (setPort p v s).loans = s.loans := rfl
@[simp] theorem setPort_clock : (setPort p v s).clock = s.clock := rfl
@[simp] theorem setPort_bays : (setPort p v s).bays = s.bays := rfl
@[simp] theorem setPort_watches : (setPort p v s).watches = s.watches := rfl
@[simp] theorem setPort_fences : (setPort p v s).fences = s.fences := rfl
@[simp] theorem setPort_loader : (setPort p v s).loader = s.loader := rfl
@[simp] theorem setPort_events : (setPort p v s).events = s.events := rfl
@[simp] theorem setPort_choices : (setPort p v s).choices = s.choices := rfl
@[simp] theorem setPort_pending : (setPort p v s).pending = s.pending := rfl
@[simp] theorem setPort_node (m : Nat) : (setPort p v s).node m = s.node m := rfl
@[simp] theorem setPort_authority : (setPort p v s).authority = s.authority := rfl
@[simp] theorem setPort_isBarred (m : Nat) : (setPort p v s).isBarred m = s.isBarred m := rfl
@[simp] theorem setPort_extent (x : Nat) : (setPort p v s).extent x = s.extent x := rfl
@[simp] theorem setPort_pair (x : Nat) : (setPort p v s).pair x = s.pair x := rfl
@[simp] theorem setPort_loan (m : Nat) : (setPort p v s).loan m = s.loan m := rfl
@[simp] theorem setPort_xl (x : Nat) : (setPort p v s).xl x = s.xl x := rfl
@[simp] theorem setPort_loansOn (x : Nat) : (setPort p v s).loansOn x = s.loansOn x := rfl
@[simp] theorem setPort_loansOf (m : Nat) : (setPort p v s).loansOf m = s.loansOf m := rfl
@[simp] theorem setPort_summary (x : Nat) : (setPort p v s).summary x = s.summary x := rfl
@[simp] theorem setPort_pendingUpgrade (x : Nat) : (setPort p v s).pendingUpgrade x = s.pendingUpgrade x := rfl
@[simp] theorem setPort_poolUsed : (setPort p v s).poolUsed = s.poolUsed := rfl
@[simp] theorem setPort_units (x : Nat) : (setPort p v s).units x = s.units x := rfl
@[simp] theorem setPort_bay (m : Nat) : (setPort p v s).bay m = s.bay m := rfl
@[simp] theorem setPort_fence (m : Nat) : (setPort p v s).fence m = s.fence m := rfl
@[simp] theorem setPort_event (m : Nat) : (setPort p v s).event m = s.event m := rfl

end setPort_reads

section setRoster_reads
variable (s : State) (t : Tab NodeRec)

@[simp] theorem setRoster_ports : (setRoster t s).ports = s.ports := rfl
@[simp] theorem setRoster_roster : (setRoster t s).roster = t := rfl
@[simp] theorem setRoster_map : (setRoster t s).map = s.map := rfl
@[simp] theorem setRoster_loans : (setRoster t s).loans = s.loans := rfl
@[simp] theorem setRoster_clock : (setRoster t s).clock = s.clock := rfl
@[simp] theorem setRoster_bays : (setRoster t s).bays = s.bays := rfl
@[simp] theorem setRoster_watches : (setRoster t s).watches = s.watches := rfl
@[simp] theorem setRoster_fences : (setRoster t s).fences = s.fences := rfl
@[simp] theorem setRoster_loader : (setRoster t s).loader = s.loader := rfl
@[simp] theorem setRoster_events : (setRoster t s).events = s.events := rfl
@[simp] theorem setRoster_choices : (setRoster t s).choices = s.choices := rfl
@[simp] theorem setRoster_pending : (setRoster t s).pending = s.pending := rfl
@[simp] theorem setRoster_port (q : PortId) : (setRoster t s).port q = s.port q := rfl
@[simp] theorem setRoster_noticeFree (q : PortId) : (setRoster t s).noticeFree q = s.noticeFree q := rfl
@[simp] theorem setRoster_extent (x : Nat) : (setRoster t s).extent x = s.extent x := rfl
@[simp] theorem setRoster_pair (x : Nat) : (setRoster t s).pair x = s.pair x := rfl
@[simp] theorem setRoster_loan (m : Nat) : (setRoster t s).loan m = s.loan m := rfl
@[simp] theorem setRoster_xl (x : Nat) : (setRoster t s).xl x = s.xl x := rfl
@[simp] theorem setRoster_loansOn (x : Nat) : (setRoster t s).loansOn x = s.loansOn x := rfl
@[simp] theorem setRoster_loansOf (m : Nat) : (setRoster t s).loansOf m = s.loansOf m := rfl
@[simp] theorem setRoster_summary (x : Nat) : (setRoster t s).summary x = s.summary x := rfl
@[simp] theorem setRoster_pendingUpgrade (x : Nat) : (setRoster t s).pendingUpgrade x = s.pendingUpgrade x := rfl
@[simp] theorem setRoster_poolUsed : (setRoster t s).poolUsed = s.poolUsed := rfl
@[simp] theorem setRoster_units (x : Nat) : (setRoster t s).units x = s.units x := rfl
@[simp] theorem setRoster_bay (m : Nat) : (setRoster t s).bay m = s.bay m := rfl
@[simp] theorem setRoster_fence (m : Nat) : (setRoster t s).fence m = s.fence m := rfl
@[simp] theorem setRoster_event (m : Nat) : (setRoster t s).event m = s.event m := rfl

end setRoster_reads

section setNode_reads
variable (s : State) (n : Nat) (r : NodeRec)

@[simp] theorem setNode_ports : (setNode n r s).ports = s.ports := rfl
@[simp] theorem setNode_roster : (setNode n r s).roster = s.roster.put n r := rfl
@[simp] theorem setNode_map : (setNode n r s).map = s.map := rfl
@[simp] theorem setNode_loans : (setNode n r s).loans = s.loans := rfl
@[simp] theorem setNode_clock : (setNode n r s).clock = s.clock := rfl
@[simp] theorem setNode_bays : (setNode n r s).bays = s.bays := rfl
@[simp] theorem setNode_watches : (setNode n r s).watches = s.watches := rfl
@[simp] theorem setNode_fences : (setNode n r s).fences = s.fences := rfl
@[simp] theorem setNode_loader : (setNode n r s).loader = s.loader := rfl
@[simp] theorem setNode_events : (setNode n r s).events = s.events := rfl
@[simp] theorem setNode_choices : (setNode n r s).choices = s.choices := rfl
@[simp] theorem setNode_pending : (setNode n r s).pending = s.pending := rfl
@[simp] theorem setNode_port (q : PortId) : (setNode n r s).port q = s.port q := rfl
@[simp] theorem setNode_noticeFree (q : PortId) : (setNode n r s).noticeFree q = s.noticeFree q := rfl
@[simp] theorem setNode_extent (x : Nat) : (setNode n r s).extent x = s.extent x := rfl
@[simp] theorem setNode_pair (x : Nat) : (setNode n r s).pair x = s.pair x := rfl
@[simp] theorem setNode_loan (m : Nat) : (setNode n r s).loan m = s.loan m := rfl
@[simp] theorem setNode_xl (x : Nat) : (setNode n r s).xl x = s.xl x := rfl
@[simp] theorem setNode_loansOn (x : Nat) : (setNode n r s).loansOn x = s.loansOn x := rfl
@[simp] theorem setNode_loansOf (m : Nat) : (setNode n r s).loansOf m = s.loansOf m := rfl
@[simp] theorem setNode_summary (x : Nat) : (setNode n r s).summary x = s.summary x := rfl
@[simp] theorem setNode_pendingUpgrade (x : Nat) : (setNode n r s).pendingUpgrade x = s.pendingUpgrade x := rfl
@[simp] theorem setNode_poolUsed : (setNode n r s).poolUsed = s.poolUsed := rfl
@[simp] theorem setNode_units (x : Nat) : (setNode n r s).units x = s.units x := rfl
@[simp] theorem setNode_bay (m : Nat) : (setNode n r s).bay m = s.bay m := rfl
@[simp] theorem setNode_fence (m : Nat) : (setNode n r s).fence m = s.fence m := rfl
@[simp] theorem setNode_event (m : Nat) : (setNode n r s).event m = s.event m := rfl

end setNode_reads

section setPair_reads
variable (s : State) (e : Nat) (v : Pair)

@[simp] theorem setPair_ports : (setPair e v s).ports = s.ports := rfl
@[simp] theorem setPair_roster : (setPair e v s).roster = s.roster := rfl
@[simp] theorem setPair_map : (setPair e v s).map = { s.map with pairs := s.map.pairs.store Pair.zero e v } := rfl
@[simp] theorem setPair_loans : (setPair e v s).loans = s.loans := rfl
@[simp] theorem setPair_clock : (setPair e v s).clock = s.clock := rfl
@[simp] theorem setPair_bays : (setPair e v s).bays = s.bays := rfl
@[simp] theorem setPair_watches : (setPair e v s).watches = s.watches := rfl
@[simp] theorem setPair_fences : (setPair e v s).fences = s.fences := rfl
@[simp] theorem setPair_loader : (setPair e v s).loader = s.loader := rfl
@[simp] theorem setPair_events : (setPair e v s).events = s.events := rfl
@[simp] theorem setPair_choices : (setPair e v s).choices = s.choices := rfl
@[simp] theorem setPair_pending : (setPair e v s).pending = s.pending := rfl
@[simp] theorem setPair_port (q : PortId) : (setPair e v s).port q = s.port q := rfl
@[simp] theorem setPair_noticeFree (q : PortId) : (setPair e v s).noticeFree q = s.noticeFree q := rfl
@[simp] theorem setPair_node (m : Nat) : (setPair e v s).node m = s.node m := rfl
@[simp] theorem setPair_authority : (setPair e v s).authority = s.authority := rfl
@[simp] theorem setPair_isBarred (m : Nat) : (setPair e v s).isBarred m = s.isBarred m := rfl
@[simp] theorem setPair_loan (m : Nat) : (setPair e v s).loan m = s.loan m := rfl
@[simp] theorem setPair_xl (x : Nat) : (setPair e v s).xl x = s.xl x := rfl
@[simp] theorem setPair_loansOn (x : Nat) : (setPair e v s).loansOn x = s.loansOn x := rfl
@[simp] theorem setPair_loansOf (m : Nat) : (setPair e v s).loansOf m = s.loansOf m := rfl
@[simp] theorem setPair_summary (x : Nat) : (setPair e v s).summary x = s.summary x := rfl
@[simp] theorem setPair_pendingUpgrade (x : Nat) : (setPair e v s).pendingUpgrade x = s.pendingUpgrade x := rfl
@[simp] theorem setPair_poolUsed : (setPair e v s).poolUsed = s.poolUsed := rfl
@[simp] theorem setPair_units (x : Nat) : (setPair e v s).units x = s.units x := rfl
@[simp] theorem setPair_bay (m : Nat) : (setPair e v s).bay m = s.bay m := rfl
@[simp] theorem setPair_fence (m : Nat) : (setPair e v s).fence m = s.fence m := rfl
@[simp] theorem setPair_event (m : Nat) : (setPair e v s).event m = s.event m := rfl

end setPair_reads

section setRecords_reads
variable (s : State) (rs : Tab ExtentRec)

@[simp] theorem setRecords_ports : (setRecords rs s).ports = s.ports := rfl
@[simp] theorem setRecords_roster : (setRecords rs s).roster = s.roster := rfl
@[simp] theorem setRecords_map : (setRecords rs s).map = { s.map with records := rs } := rfl
@[simp] theorem setRecords_loans : (setRecords rs s).loans = s.loans := rfl
@[simp] theorem setRecords_clock : (setRecords rs s).clock = s.clock := rfl
@[simp] theorem setRecords_bays : (setRecords rs s).bays = s.bays := rfl
@[simp] theorem setRecords_watches : (setRecords rs s).watches = s.watches := rfl
@[simp] theorem setRecords_fences : (setRecords rs s).fences = s.fences := rfl
@[simp] theorem setRecords_loader : (setRecords rs s).loader = s.loader := rfl
@[simp] theorem setRecords_events : (setRecords rs s).events = s.events := rfl
@[simp] theorem setRecords_choices : (setRecords rs s).choices = s.choices := rfl
@[simp] theorem setRecords_pending : (setRecords rs s).pending = s.pending := rfl
@[simp] theorem setRecords_port (q : PortId) : (setRecords rs s).port q = s.port q := rfl
@[simp] theorem setRecords_noticeFree (q : PortId) : (setRecords rs s).noticeFree q = s.noticeFree q := rfl
@[simp] theorem setRecords_node (m : Nat) : (setRecords rs s).node m = s.node m := rfl
@[simp] theorem setRecords_authority : (setRecords rs s).authority = s.authority := rfl
@[simp] theorem setRecords_isBarred (m : Nat) : (setRecords rs s).isBarred m = s.isBarred m := rfl
@[simp] theorem setRecords_loan (m : Nat) : (setRecords rs s).loan m = s.loan m := rfl
@[simp] theorem setRecords_xl (x : Nat) : (setRecords rs s).xl x = s.xl x := rfl
@[simp] theorem setRecords_loansOn (x : Nat) : (setRecords rs s).loansOn x = s.loansOn x := rfl
@[simp] theorem setRecords_loansOf (m : Nat) : (setRecords rs s).loansOf m = s.loansOf m := rfl
@[simp] theorem setRecords_summary (x : Nat) : (setRecords rs s).summary x = s.summary x := rfl
@[simp] theorem setRecords_pendingUpgrade (x : Nat) : (setRecords rs s).pendingUpgrade x = s.pendingUpgrade x := rfl
@[simp] theorem setRecords_poolUsed : (setRecords rs s).poolUsed = s.poolUsed := rfl
@[simp] theorem setRecords_units (x : Nat) : (setRecords rs s).units x = s.units x := rfl
@[simp] theorem setRecords_bay (m : Nat) : (setRecords rs s).bay m = s.bay m := rfl
@[simp] theorem setRecords_fence (m : Nat) : (setRecords rs s).fence m = s.fence m := rfl
@[simp] theorem setRecords_event (m : Nat) : (setRecords rs s).event m = s.event m := rfl

end setRecords_reads

section setLoan_reads
variable (s : State) (n : Nat) (r : LoanRec)

@[simp] theorem setLoan_ports : (setLoan n r s).ports = s.ports := rfl
@[simp] theorem setLoan_roster : (setLoan n r s).roster = s.roster := rfl
@[simp] theorem setLoan_map : (setLoan n r s).map = s.map := rfl
@[simp] theorem setLoan_loans : (setLoan n r s).loans = { s.loans with table := s.loans.table.store (LoanRec.free 0) n r } := rfl
@[simp] theorem setLoan_clock : (setLoan n r s).clock = s.clock := rfl
@[simp] theorem setLoan_bays : (setLoan n r s).bays = s.bays := rfl
@[simp] theorem setLoan_watches : (setLoan n r s).watches = s.watches := rfl
@[simp] theorem setLoan_fences : (setLoan n r s).fences = s.fences := rfl
@[simp] theorem setLoan_loader : (setLoan n r s).loader = s.loader := rfl
@[simp] theorem setLoan_events : (setLoan n r s).events = s.events := rfl
@[simp] theorem setLoan_choices : (setLoan n r s).choices = s.choices := rfl
@[simp] theorem setLoan_pending : (setLoan n r s).pending = s.pending := rfl
@[simp] theorem setLoan_port (q : PortId) : (setLoan n r s).port q = s.port q := rfl
@[simp] theorem setLoan_noticeFree (q : PortId) : (setLoan n r s).noticeFree q = s.noticeFree q := rfl
@[simp] theorem setLoan_node (m : Nat) : (setLoan n r s).node m = s.node m := rfl
@[simp] theorem setLoan_authority : (setLoan n r s).authority = s.authority := rfl
@[simp] theorem setLoan_isBarred (m : Nat) : (setLoan n r s).isBarred m = s.isBarred m := rfl
@[simp] theorem setLoan_extent (x : Nat) : (setLoan n r s).extent x = s.extent x := rfl
@[simp] theorem setLoan_pair (x : Nat) : (setLoan n r s).pair x = s.pair x := rfl
@[simp] theorem setLoan_units (x : Nat) : (setLoan n r s).units x = s.units x := rfl
@[simp] theorem setLoan_bay (m : Nat) : (setLoan n r s).bay m = s.bay m := rfl
@[simp] theorem setLoan_fence (m : Nat) : (setLoan n r s).fence m = s.fence m := rfl
@[simp] theorem setLoan_event (m : Nat) : (setLoan n r s).event m = s.event m := rfl

end setLoan_reads

section updLoan_reads
variable (s : State) (n : Nat) (f : LoanRec → LoanRec)

@[simp] theorem updLoan_ports : (updLoan n f s).ports = s.ports := rfl
@[simp] theorem updLoan_roster : (updLoan n f s).roster = s.roster := rfl
@[simp] theorem updLoan_map : (updLoan n f s).map = s.map := rfl
@[simp] theorem updLoan_loans : (updLoan n f s).loans = { s.loans with table := s.loans.table.store (LoanRec.free 0) n (f (s.loan n)) } := rfl
@[simp] theorem updLoan_clock : (updLoan n f s).clock = s.clock := rfl
@[simp] theorem updLoan_bays : (updLoan n f s).bays = s.bays := rfl
@[simp] theorem updLoan_watches : (updLoan n f s).watches = s.watches := rfl
@[simp] theorem updLoan_fences : (updLoan n f s).fences = s.fences := rfl
@[simp] theorem updLoan_loader : (updLoan n f s).loader = s.loader := rfl
@[simp] theorem updLoan_events : (updLoan n f s).events = s.events := rfl
@[simp] theorem updLoan_choices : (updLoan n f s).choices = s.choices := rfl
@[simp] theorem updLoan_pending : (updLoan n f s).pending = s.pending := rfl
@[simp] theorem updLoan_port (q : PortId) : (updLoan n f s).port q = s.port q := rfl
@[simp] theorem updLoan_noticeFree (q : PortId) : (updLoan n f s).noticeFree q = s.noticeFree q := rfl
@[simp] theorem updLoan_node (m : Nat) : (updLoan n f s).node m = s.node m := rfl
@[simp] theorem updLoan_authority : (updLoan n f s).authority = s.authority := rfl
@[simp] theorem updLoan_isBarred (m : Nat) : (updLoan n f s).isBarred m = s.isBarred m := rfl
@[simp] theorem updLoan_extent (x : Nat) : (updLoan n f s).extent x = s.extent x := rfl
@[simp] theorem updLoan_pair (x : Nat) : (updLoan n f s).pair x = s.pair x := rfl
@[simp] theorem updLoan_units (x : Nat) : (updLoan n f s).units x = s.units x := rfl
@[simp] theorem updLoan_bay (m : Nat) : (updLoan n f s).bay m = s.bay m := rfl
@[simp] theorem updLoan_fence (m : Nat) : (updLoan n f s).fence m = s.fence m := rfl
@[simp] theorem updLoan_event (m : Nat) : (updLoan n f s).event m = s.event m := rfl

end updLoan_reads

section setXl_reads
variable (s : State) (e : Nat) (v : ExtentLoans)

@[simp] theorem setXl_ports : (setXl e v s).ports = s.ports := rfl
@[simp] theorem setXl_roster : (setXl e v s).roster = s.roster := rfl
@[simp] theorem setXl_map : (setXl e v s).map = s.map := rfl
@[simp] theorem setXl_loans : (setXl e v s).loans = { s.loans with extents := s.loans.extents.store ExtentLoans.idle e v } := rfl
@[simp] theorem setXl_clock : (setXl e v s).clock = s.clock := rfl
@[simp] theorem setXl_bays : (setXl e v s).bays = s.bays := rfl
@[simp] theorem setXl_watches : (setXl e v s).watches = s.watches := rfl
@[simp] theorem setXl_fences : (setXl e v s).fences = s.fences := rfl
@[simp] theorem setXl_loader : (setXl e v s).loader = s.loader := rfl
@[simp] theorem setXl_events : (setXl e v s).events = s.events := rfl
@[simp] theorem setXl_choices : (setXl e v s).choices = s.choices := rfl
@[simp] theorem setXl_pending : (setXl e v s).pending = s.pending := rfl
@[simp] theorem setXl_port (q : PortId) : (setXl e v s).port q = s.port q := rfl
@[simp] theorem setXl_noticeFree (q : PortId) : (setXl e v s).noticeFree q = s.noticeFree q := rfl
@[simp] theorem setXl_node (m : Nat) : (setXl e v s).node m = s.node m := rfl
@[simp] theorem setXl_authority : (setXl e v s).authority = s.authority := rfl
@[simp] theorem setXl_isBarred (m : Nat) : (setXl e v s).isBarred m = s.isBarred m := rfl
@[simp] theorem setXl_extent (x : Nat) : (setXl e v s).extent x = s.extent x := rfl
@[simp] theorem setXl_pair (x : Nat) : (setXl e v s).pair x = s.pair x := rfl
@[simp] theorem setXl_units (x : Nat) : (setXl e v s).units x = s.units x := rfl
@[simp] theorem setXl_bay (m : Nat) : (setXl e v s).bay m = s.bay m := rfl
@[simp] theorem setXl_fence (m : Nat) : (setXl e v s).fence m = s.fence m := rfl
@[simp] theorem setXl_event (m : Nat) : (setXl e v s).event m = s.event m := rfl

end setXl_reads

section updXl_reads
variable (s : State) (e : Nat) (f : ExtentLoans → ExtentLoans)

@[simp] theorem updXl_ports : (updXl e f s).ports = s.ports := rfl
@[simp] theorem updXl_roster : (updXl e f s).roster = s.roster := rfl
@[simp] theorem updXl_map : (updXl e f s).map = s.map := rfl
@[simp] theorem updXl_loans : (updXl e f s).loans = { s.loans with extents := s.loans.extents.store ExtentLoans.idle e (f (s.xl e)) } := rfl
@[simp] theorem updXl_clock : (updXl e f s).clock = s.clock := rfl
@[simp] theorem updXl_bays : (updXl e f s).bays = s.bays := rfl
@[simp] theorem updXl_watches : (updXl e f s).watches = s.watches := rfl
@[simp] theorem updXl_fences : (updXl e f s).fences = s.fences := rfl
@[simp] theorem updXl_loader : (updXl e f s).loader = s.loader := rfl
@[simp] theorem updXl_events : (updXl e f s).events = s.events := rfl
@[simp] theorem updXl_choices : (updXl e f s).choices = s.choices := rfl
@[simp] theorem updXl_pending : (updXl e f s).pending = s.pending := rfl
@[simp] theorem updXl_port (q : PortId) : (updXl e f s).port q = s.port q := rfl
@[simp] theorem updXl_noticeFree (q : PortId) : (updXl e f s).noticeFree q = s.noticeFree q := rfl
@[simp] theorem updXl_node (m : Nat) : (updXl e f s).node m = s.node m := rfl
@[simp] theorem updXl_authority : (updXl e f s).authority = s.authority := rfl
@[simp] theorem updXl_isBarred (m : Nat) : (updXl e f s).isBarred m = s.isBarred m := rfl
@[simp] theorem updXl_extent (x : Nat) : (updXl e f s).extent x = s.extent x := rfl
@[simp] theorem updXl_pair (x : Nat) : (updXl e f s).pair x = s.pair x := rfl
@[simp] theorem updXl_units (x : Nat) : (updXl e f s).units x = s.units x := rfl
@[simp] theorem updXl_bay (m : Nat) : (updXl e f s).bay m = s.bay m := rfl
@[simp] theorem updXl_fence (m : Nat) : (updXl e f s).fence m = s.fence m := rfl
@[simp] theorem updXl_event (m : Nat) : (updXl e f s).event m = s.event m := rfl

end updXl_reads

section setTableWait_reads
variable (s : State) (l : List Nat)

@[simp] theorem setTableWait_ports : (setTableWait l s).ports = s.ports := rfl
@[simp] theorem setTableWait_roster : (setTableWait l s).roster = s.roster := rfl
@[simp] theorem setTableWait_map : (setTableWait l s).map = s.map := rfl
@[simp] theorem setTableWait_loans : (setTableWait l s).loans = { s.loans with tableWait := l } := rfl
@[simp] theorem setTableWait_clock : (setTableWait l s).clock = s.clock := rfl
@[simp] theorem setTableWait_bays : (setTableWait l s).bays = s.bays := rfl
@[simp] theorem setTableWait_watches : (setTableWait l s).watches = s.watches := rfl
@[simp] theorem setTableWait_fences : (setTableWait l s).fences = s.fences := rfl
@[simp] theorem setTableWait_loader : (setTableWait l s).loader = s.loader := rfl
@[simp] theorem setTableWait_events : (setTableWait l s).events = s.events := rfl
@[simp] theorem setTableWait_choices : (setTableWait l s).choices = s.choices := rfl
@[simp] theorem setTableWait_pending : (setTableWait l s).pending = s.pending := rfl
@[simp] theorem setTableWait_port (q : PortId) : (setTableWait l s).port q = s.port q := rfl
@[simp] theorem setTableWait_noticeFree (q : PortId) : (setTableWait l s).noticeFree q = s.noticeFree q := rfl
@[simp] theorem setTableWait_node (m : Nat) : (setTableWait l s).node m = s.node m := rfl
@[simp] theorem setTableWait_authority : (setTableWait l s).authority = s.authority := rfl
@[simp] theorem setTableWait_isBarred (m : Nat) : (setTableWait l s).isBarred m = s.isBarred m := rfl
@[simp] theorem setTableWait_extent (x : Nat) : (setTableWait l s).extent x = s.extent x := rfl
@[simp] theorem setTableWait_pair (x : Nat) : (setTableWait l s).pair x = s.pair x := rfl
@[simp] theorem setTableWait_units (x : Nat) : (setTableWait l s).units x = s.units x := rfl
@[simp] theorem setTableWait_bay (m : Nat) : (setTableWait l s).bay m = s.bay m := rfl
@[simp] theorem setTableWait_fence (m : Nat) : (setTableWait l s).fence m = s.fence m := rfl
@[simp] theorem setTableWait_event (m : Nat) : (setTableWait l s).event m = s.event m := rfl

end setTableWait_reads

section setClock_reads
variable (s : State) (c : Clock)

@[simp] theorem setClock_ports : (setClock c s).ports = s.ports := rfl
@[simp] theorem setClock_roster : (setClock c s).roster = s.roster := rfl
@[simp] theorem setClock_map : (setClock c s).map = s.map := rfl
@[simp] theorem setClock_loans : (setClock c s).loans = s.loans := rfl
@[simp] theorem setClock_clock : (setClock c s).clock = c := rfl
@[simp] theorem setClock_bays : (setClock c s).bays = s.bays := rfl
@[simp] theorem setClock_watches : (setClock c s).watches = s.watches := rfl
@[simp] theorem setClock_fences : (setClock c s).fences = s.fences := rfl
@[simp] theorem setClock_loader : (setClock c s).loader = s.loader := rfl
@[simp] theorem setClock_events : (setClock c s).events = s.events := rfl
@[simp] theorem setClock_choices : (setClock c s).choices = s.choices := rfl
@[simp] theorem setClock_pending : (setClock c s).pending = s.pending := rfl
@[simp] theorem setClock_port (q : PortId) : (setClock c s).port q = s.port q := rfl
@[simp] theorem setClock_noticeFree (q : PortId) : (setClock c s).noticeFree q = s.noticeFree q := rfl
@[simp] theorem setClock_node (m : Nat) : (setClock c s).node m = s.node m := rfl
@[simp] theorem setClock_authority : (setClock c s).authority = s.authority := rfl
@[simp] theorem setClock_isBarred (m : Nat) : (setClock c s).isBarred m = s.isBarred m := rfl
@[simp] theorem setClock_extent (x : Nat) : (setClock c s).extent x = s.extent x := rfl
@[simp] theorem setClock_pair (x : Nat) : (setClock c s).pair x = s.pair x := rfl
@[simp] theorem setClock_loan (m : Nat) : (setClock c s).loan m = s.loan m := rfl
@[simp] theorem setClock_xl (x : Nat) : (setClock c s).xl x = s.xl x := rfl
@[simp] theorem setClock_loansOn (x : Nat) : (setClock c s).loansOn x = s.loansOn x := rfl
@[simp] theorem setClock_loansOf (m : Nat) : (setClock c s).loansOf m = s.loansOf m := rfl
@[simp] theorem setClock_summary (x : Nat) : (setClock c s).summary x = s.summary x := rfl
@[simp] theorem setClock_pendingUpgrade (x : Nat) : (setClock c s).pendingUpgrade x = s.pendingUpgrade x := rfl
@[simp] theorem setClock_poolUsed : (setClock c s).poolUsed = s.poolUsed := rfl
@[simp] theorem setClock_bay (m : Nat) : (setClock c s).bay m = s.bay m := rfl
@[simp] theorem setClock_fence (m : Nat) : (setClock c s).fence m = s.fence m := rfl
@[simp] theorem setClock_event (m : Nat) : (setClock c s).event m = s.event m := rfl

end setClock_reads

section setBay_reads
variable (s : State) (b : Nat) (v : Bay)

@[simp] theorem setBay_ports : (setBay b v s).ports = s.ports := rfl
@[simp] theorem setBay_roster : (setBay b v s).roster = s.roster := rfl
@[simp] theorem setBay_map : (setBay b v s).map = s.map := rfl
@[simp] theorem setBay_loans : (setBay b v s).loans = s.loans := rfl
@[simp] theorem setBay_clock : (setBay b v s).clock = s.clock := rfl
@[simp] theorem setBay_bays : (setBay b v s).bays = s.bays.setIfInBounds b v := rfl
@[simp] theorem setBay_watches : (setBay b v s).watches = s.watches := rfl
@[simp] theorem setBay_fences : (setBay b v s).fences = s.fences := rfl
@[simp] theorem setBay_loader : (setBay b v s).loader = s.loader := rfl
@[simp] theorem setBay_events : (setBay b v s).events = s.events := rfl
@[simp] theorem setBay_choices : (setBay b v s).choices = s.choices := rfl
@[simp] theorem setBay_pending : (setBay b v s).pending = s.pending := rfl
@[simp] theorem setBay_port (q : PortId) : (setBay b v s).port q = s.port q := rfl
@[simp] theorem setBay_noticeFree (q : PortId) : (setBay b v s).noticeFree q = s.noticeFree q := rfl
@[simp] theorem setBay_node (m : Nat) : (setBay b v s).node m = s.node m := rfl
@[simp] theorem setBay_authority : (setBay b v s).authority = s.authority := rfl
@[simp] theorem setBay_isBarred (m : Nat) : (setBay b v s).isBarred m = s.isBarred m := rfl
@[simp] theorem setBay_extent (x : Nat) : (setBay b v s).extent x = s.extent x := rfl
@[simp] theorem setBay_pair (x : Nat) : (setBay b v s).pair x = s.pair x := rfl
@[simp] theorem setBay_loan (m : Nat) : (setBay b v s).loan m = s.loan m := rfl
@[simp] theorem setBay_xl (x : Nat) : (setBay b v s).xl x = s.xl x := rfl
@[simp] theorem setBay_loansOn (x : Nat) : (setBay b v s).loansOn x = s.loansOn x := rfl
@[simp] theorem setBay_loansOf (m : Nat) : (setBay b v s).loansOf m = s.loansOf m := rfl
@[simp] theorem setBay_summary (x : Nat) : (setBay b v s).summary x = s.summary x := rfl
@[simp] theorem setBay_pendingUpgrade (x : Nat) : (setBay b v s).pendingUpgrade x = s.pendingUpgrade x := rfl
@[simp] theorem setBay_poolUsed : (setBay b v s).poolUsed = s.poolUsed := rfl
@[simp] theorem setBay_units (x : Nat) : (setBay b v s).units x = s.units x := rfl
@[simp] theorem setBay_fence (m : Nat) : (setBay b v s).fence m = s.fence m := rfl
@[simp] theorem setBay_event (m : Nat) : (setBay b v s).event m = s.event m := rfl

end setBay_reads

section updBay_reads
variable (s : State) (b : Nat) (f : Bay → Bay)

@[simp] theorem updBay_ports : (updBay b f s).ports = s.ports := rfl
@[simp] theorem updBay_roster : (updBay b f s).roster = s.roster := rfl
@[simp] theorem updBay_map : (updBay b f s).map = s.map := rfl
@[simp] theorem updBay_loans : (updBay b f s).loans = s.loans := rfl
@[simp] theorem updBay_clock : (updBay b f s).clock = s.clock := rfl
@[simp] theorem updBay_bays : (updBay b f s).bays = s.bays.setIfInBounds b (f (s.bay b)) := rfl
@[simp] theorem updBay_watches : (updBay b f s).watches = s.watches := rfl
@[simp] theorem updBay_fences : (updBay b f s).fences = s.fences := rfl
@[simp] theorem updBay_loader : (updBay b f s).loader = s.loader := rfl
@[simp] theorem updBay_events : (updBay b f s).events = s.events := rfl
@[simp] theorem updBay_choices : (updBay b f s).choices = s.choices := rfl
@[simp] theorem updBay_pending : (updBay b f s).pending = s.pending := rfl
@[simp] theorem updBay_port (q : PortId) : (updBay b f s).port q = s.port q := rfl
@[simp] theorem updBay_noticeFree (q : PortId) : (updBay b f s).noticeFree q = s.noticeFree q := rfl
@[simp] theorem updBay_node (m : Nat) : (updBay b f s).node m = s.node m := rfl
@[simp] theorem updBay_authority : (updBay b f s).authority = s.authority := rfl
@[simp] theorem updBay_isBarred (m : Nat) : (updBay b f s).isBarred m = s.isBarred m := rfl
@[simp] theorem updBay_extent (x : Nat) : (updBay b f s).extent x = s.extent x := rfl
@[simp] theorem updBay_pair (x : Nat) : (updBay b f s).pair x = s.pair x := rfl
@[simp] theorem updBay_loan (m : Nat) : (updBay b f s).loan m = s.loan m := rfl
@[simp] theorem updBay_xl (x : Nat) : (updBay b f s).xl x = s.xl x := rfl
@[simp] theorem updBay_loansOn (x : Nat) : (updBay b f s).loansOn x = s.loansOn x := rfl
@[simp] theorem updBay_loansOf (m : Nat) : (updBay b f s).loansOf m = s.loansOf m := rfl
@[simp] theorem updBay_summary (x : Nat) : (updBay b f s).summary x = s.summary x := rfl
@[simp] theorem updBay_pendingUpgrade (x : Nat) : (updBay b f s).pendingUpgrade x = s.pendingUpgrade x := rfl
@[simp] theorem updBay_poolUsed : (updBay b f s).poolUsed = s.poolUsed := rfl
@[simp] theorem updBay_units (x : Nat) : (updBay b f s).units x = s.units x := rfl
@[simp] theorem updBay_fence (m : Nat) : (updBay b f s).fence m = s.fence m := rfl
@[simp] theorem updBay_event (m : Nat) : (updBay b f s).event m = s.event m := rfl

end updBay_reads

section setWatches_reads
variable (s : State) (w : Tab Watch)

@[simp] theorem setWatches_ports : (setWatches w s).ports = s.ports := rfl
@[simp] theorem setWatches_roster : (setWatches w s).roster = s.roster := rfl
@[simp] theorem setWatches_map : (setWatches w s).map = s.map := rfl
@[simp] theorem setWatches_loans : (setWatches w s).loans = s.loans := rfl
@[simp] theorem setWatches_clock : (setWatches w s).clock = s.clock := rfl
@[simp] theorem setWatches_bays : (setWatches w s).bays = s.bays := rfl
@[simp] theorem setWatches_watches : (setWatches w s).watches = w := rfl
@[simp] theorem setWatches_fences : (setWatches w s).fences = s.fences := rfl
@[simp] theorem setWatches_loader : (setWatches w s).loader = s.loader := rfl
@[simp] theorem setWatches_events : (setWatches w s).events = s.events := rfl
@[simp] theorem setWatches_choices : (setWatches w s).choices = s.choices := rfl
@[simp] theorem setWatches_pending : (setWatches w s).pending = s.pending := rfl
@[simp] theorem setWatches_port (q : PortId) : (setWatches w s).port q = s.port q := rfl
@[simp] theorem setWatches_noticeFree (q : PortId) : (setWatches w s).noticeFree q = s.noticeFree q := rfl
@[simp] theorem setWatches_node (m : Nat) : (setWatches w s).node m = s.node m := rfl
@[simp] theorem setWatches_authority : (setWatches w s).authority = s.authority := rfl
@[simp] theorem setWatches_isBarred (m : Nat) : (setWatches w s).isBarred m = s.isBarred m := rfl
@[simp] theorem setWatches_extent (x : Nat) : (setWatches w s).extent x = s.extent x := rfl
@[simp] theorem setWatches_pair (x : Nat) : (setWatches w s).pair x = s.pair x := rfl
@[simp] theorem setWatches_loan (m : Nat) : (setWatches w s).loan m = s.loan m := rfl
@[simp] theorem setWatches_xl (x : Nat) : (setWatches w s).xl x = s.xl x := rfl
@[simp] theorem setWatches_loansOn (x : Nat) : (setWatches w s).loansOn x = s.loansOn x := rfl
@[simp] theorem setWatches_loansOf (m : Nat) : (setWatches w s).loansOf m = s.loansOf m := rfl
@[simp] theorem setWatches_summary (x : Nat) : (setWatches w s).summary x = s.summary x := rfl
@[simp] theorem setWatches_pendingUpgrade (x : Nat) : (setWatches w s).pendingUpgrade x = s.pendingUpgrade x := rfl
@[simp] theorem setWatches_poolUsed : (setWatches w s).poolUsed = s.poolUsed := rfl
@[simp] theorem setWatches_units (x : Nat) : (setWatches w s).units x = s.units x := rfl
@[simp] theorem setWatches_bay (m : Nat) : (setWatches w s).bay m = s.bay m := rfl
@[simp] theorem setWatches_fence (m : Nat) : (setWatches w s).fence m = s.fence m := rfl
@[simp] theorem setWatches_event (m : Nat) : (setWatches w s).event m = s.event m := rfl

end setWatches_reads

section setFences_reads
variable (s : State) (v : Vector Fence 8)

@[simp] theorem setFences_ports : (setFences v s).ports = s.ports := rfl
@[simp] theorem setFences_roster : (setFences v s).roster = s.roster := rfl
@[simp] theorem setFences_map : (setFences v s).map = s.map := rfl
@[simp] theorem setFences_loans : (setFences v s).loans = s.loans := rfl
@[simp] theorem setFences_clock : (setFences v s).clock = s.clock := rfl
@[simp] theorem setFences_bays : (setFences v s).bays = s.bays := rfl
@[simp] theorem setFences_watches : (setFences v s).watches = s.watches := rfl
@[simp] theorem setFences_fences : (setFences v s).fences = { s.fences with fences := v } := rfl
@[simp] theorem setFences_loader : (setFences v s).loader = s.loader := rfl
@[simp] theorem setFences_events : (setFences v s).events = s.events := rfl
@[simp] theorem setFences_choices : (setFences v s).choices = s.choices := rfl
@[simp] theorem setFences_pending : (setFences v s).pending = s.pending := rfl
@[simp] theorem setFences_port (q : PortId) : (setFences v s).port q = s.port q := rfl
@[simp] theorem setFences_noticeFree (q : PortId) : (setFences v s).noticeFree q = s.noticeFree q := rfl
@[simp] theorem setFences_node (m : Nat) : (setFences v s).node m = s.node m := rfl
@[simp] theorem setFences_authority : (setFences v s).authority = s.authority := rfl
@[simp] theorem setFences_isBarred (m : Nat) : (setFences v s).isBarred m = s.isBarred m := rfl
@[simp] theorem setFences_extent (x : Nat) : (setFences v s).extent x = s.extent x := rfl
@[simp] theorem setFences_pair (x : Nat) : (setFences v s).pair x = s.pair x := rfl
@[simp] theorem setFences_loan (m : Nat) : (setFences v s).loan m = s.loan m := rfl
@[simp] theorem setFences_xl (x : Nat) : (setFences v s).xl x = s.xl x := rfl
@[simp] theorem setFences_loansOn (x : Nat) : (setFences v s).loansOn x = s.loansOn x := rfl
@[simp] theorem setFences_loansOf (m : Nat) : (setFences v s).loansOf m = s.loansOf m := rfl
@[simp] theorem setFences_summary (x : Nat) : (setFences v s).summary x = s.summary x := rfl
@[simp] theorem setFences_pendingUpgrade (x : Nat) : (setFences v s).pendingUpgrade x = s.pendingUpgrade x := rfl
@[simp] theorem setFences_poolUsed : (setFences v s).poolUsed = s.poolUsed := rfl
@[simp] theorem setFences_units (x : Nat) : (setFences v s).units x = s.units x := rfl
@[simp] theorem setFences_bay (m : Nat) : (setFences v s).bay m = s.bay m := rfl
@[simp] theorem setFences_event (m : Nat) : (setFences v s).event m = s.event m := rfl

end setFences_reads

section setHeld_reads
variable (s : State) (h : Tab Held)

@[simp] theorem setHeld_ports : (setHeld h s).ports = s.ports := rfl
@[simp] theorem setHeld_roster : (setHeld h s).roster = s.roster := rfl
@[simp] theorem setHeld_map : (setHeld h s).map = s.map := rfl
@[simp] theorem setHeld_loans : (setHeld h s).loans = s.loans := rfl
@[simp] theorem setHeld_clock : (setHeld h s).clock = s.clock := rfl
@[simp] theorem setHeld_bays : (setHeld h s).bays = s.bays := rfl
@[simp] theorem setHeld_watches : (setHeld h s).watches = s.watches := rfl
@[simp] theorem setHeld_fences : (setHeld h s).fences = { s.fences with held := h } := rfl
@[simp] theorem setHeld_loader : (setHeld h s).loader = s.loader := rfl
@[simp] theorem setHeld_events : (setHeld h s).events = s.events := rfl
@[simp] theorem setHeld_choices : (setHeld h s).choices = s.choices := rfl
@[simp] theorem setHeld_pending : (setHeld h s).pending = s.pending := rfl
@[simp] theorem setHeld_port (q : PortId) : (setHeld h s).port q = s.port q := rfl
@[simp] theorem setHeld_noticeFree (q : PortId) : (setHeld h s).noticeFree q = s.noticeFree q := rfl
@[simp] theorem setHeld_node (m : Nat) : (setHeld h s).node m = s.node m := rfl
@[simp] theorem setHeld_authority : (setHeld h s).authority = s.authority := rfl
@[simp] theorem setHeld_isBarred (m : Nat) : (setHeld h s).isBarred m = s.isBarred m := rfl
@[simp] theorem setHeld_extent (x : Nat) : (setHeld h s).extent x = s.extent x := rfl
@[simp] theorem setHeld_pair (x : Nat) : (setHeld h s).pair x = s.pair x := rfl
@[simp] theorem setHeld_loan (m : Nat) : (setHeld h s).loan m = s.loan m := rfl
@[simp] theorem setHeld_xl (x : Nat) : (setHeld h s).xl x = s.xl x := rfl
@[simp] theorem setHeld_loansOn (x : Nat) : (setHeld h s).loansOn x = s.loansOn x := rfl
@[simp] theorem setHeld_loansOf (m : Nat) : (setHeld h s).loansOf m = s.loansOf m := rfl
@[simp] theorem setHeld_summary (x : Nat) : (setHeld h s).summary x = s.summary x := rfl
@[simp] theorem setHeld_pendingUpgrade (x : Nat) : (setHeld h s).pendingUpgrade x = s.pendingUpgrade x := rfl
@[simp] theorem setHeld_poolUsed : (setHeld h s).poolUsed = s.poolUsed := rfl
@[simp] theorem setHeld_units (x : Nat) : (setHeld h s).units x = s.units x := rfl
@[simp] theorem setHeld_bay (m : Nat) : (setHeld h s).bay m = s.bay m := rfl
@[simp] theorem setHeld_event (m : Nat) : (setHeld h s).event m = s.event m := rfl

end setHeld_reads

section setLoader_reads
variable (s : State) (l : Loader)

@[simp] theorem setLoader_ports : (setLoader l s).ports = s.ports := rfl
@[simp] theorem setLoader_roster : (setLoader l s).roster = s.roster := rfl
@[simp] theorem setLoader_map : (setLoader l s).map = s.map := rfl
@[simp] theorem setLoader_loans : (setLoader l s).loans = s.loans := rfl
@[simp] theorem setLoader_clock : (setLoader l s).clock = s.clock := rfl
@[simp] theorem setLoader_bays : (setLoader l s).bays = s.bays := rfl
@[simp] theorem setLoader_watches : (setLoader l s).watches = s.watches := rfl
@[simp] theorem setLoader_fences : (setLoader l s).fences = s.fences := rfl
@[simp] theorem setLoader_loader : (setLoader l s).loader = l := rfl
@[simp] theorem setLoader_events : (setLoader l s).events = s.events := rfl
@[simp] theorem setLoader_choices : (setLoader l s).choices = s.choices := rfl
@[simp] theorem setLoader_pending : (setLoader l s).pending = s.pending := rfl
@[simp] theorem setLoader_port (q : PortId) : (setLoader l s).port q = s.port q := rfl
@[simp] theorem setLoader_noticeFree (q : PortId) : (setLoader l s).noticeFree q = s.noticeFree q := rfl
@[simp] theorem setLoader_node (m : Nat) : (setLoader l s).node m = s.node m := rfl
@[simp] theorem setLoader_authority : (setLoader l s).authority = s.authority := rfl
@[simp] theorem setLoader_isBarred (m : Nat) : (setLoader l s).isBarred m = s.isBarred m := rfl
@[simp] theorem setLoader_extent (x : Nat) : (setLoader l s).extent x = s.extent x := rfl
@[simp] theorem setLoader_pair (x : Nat) : (setLoader l s).pair x = s.pair x := rfl
@[simp] theorem setLoader_loan (m : Nat) : (setLoader l s).loan m = s.loan m := rfl
@[simp] theorem setLoader_xl (x : Nat) : (setLoader l s).xl x = s.xl x := rfl
@[simp] theorem setLoader_loansOn (x : Nat) : (setLoader l s).loansOn x = s.loansOn x := rfl
@[simp] theorem setLoader_loansOf (m : Nat) : (setLoader l s).loansOf m = s.loansOf m := rfl
@[simp] theorem setLoader_summary (x : Nat) : (setLoader l s).summary x = s.summary x := rfl
@[simp] theorem setLoader_pendingUpgrade (x : Nat) : (setLoader l s).pendingUpgrade x = s.pendingUpgrade x := rfl
@[simp] theorem setLoader_poolUsed : (setLoader l s).poolUsed = s.poolUsed := rfl
@[simp] theorem setLoader_units (x : Nat) : (setLoader l s).units x = s.units x := rfl
@[simp] theorem setLoader_bay (m : Nat) : (setLoader l s).bay m = s.bay m := rfl
@[simp] theorem setLoader_fence (m : Nat) : (setLoader l s).fence m = s.fence m := rfl
@[simp] theorem setLoader_event (m : Nat) : (setLoader l s).event m = s.event m := rfl

end setLoader_reads

section setEvent_reads
variable (s : State) (k : Nat) (v : EventRec)

@[simp] theorem setEvent_ports : (setEvent k v s).ports = s.ports := rfl
@[simp] theorem setEvent_roster : (setEvent k v s).roster = s.roster := rfl
@[simp] theorem setEvent_map : (setEvent k v s).map = s.map := rfl
@[simp] theorem setEvent_loans : (setEvent k v s).loans = s.loans := rfl
@[simp] theorem setEvent_clock : (setEvent k v s).clock = s.clock := rfl
@[simp] theorem setEvent_bays : (setEvent k v s).bays = s.bays := rfl
@[simp] theorem setEvent_watches : (setEvent k v s).watches = s.watches := rfl
@[simp] theorem setEvent_fences : (setEvent k v s).fences = s.fences := rfl
@[simp] theorem setEvent_loader : (setEvent k v s).loader = s.loader := rfl
@[simp] theorem setEvent_events : (setEvent k v s).events = { s.events with records := s.events.records.setIfInBounds k v } := rfl
@[simp] theorem setEvent_choices : (setEvent k v s).choices = s.choices := rfl
@[simp] theorem setEvent_pending : (setEvent k v s).pending = s.pending := rfl
@[simp] theorem setEvent_port (q : PortId) : (setEvent k v s).port q = s.port q := rfl
@[simp] theorem setEvent_noticeFree (q : PortId) : (setEvent k v s).noticeFree q = s.noticeFree q := rfl
@[simp] theorem setEvent_node (m : Nat) : (setEvent k v s).node m = s.node m := rfl
@[simp] theorem setEvent_authority : (setEvent k v s).authority = s.authority := rfl
@[simp] theorem setEvent_isBarred (m : Nat) : (setEvent k v s).isBarred m = s.isBarred m := rfl
@[simp] theorem setEvent_extent (x : Nat) : (setEvent k v s).extent x = s.extent x := rfl
@[simp] theorem setEvent_pair (x : Nat) : (setEvent k v s).pair x = s.pair x := rfl
@[simp] theorem setEvent_loan (m : Nat) : (setEvent k v s).loan m = s.loan m := rfl
@[simp] theorem setEvent_xl (x : Nat) : (setEvent k v s).xl x = s.xl x := rfl
@[simp] theorem setEvent_loansOn (x : Nat) : (setEvent k v s).loansOn x = s.loansOn x := rfl
@[simp] theorem setEvent_loansOf (m : Nat) : (setEvent k v s).loansOf m = s.loansOf m := rfl
@[simp] theorem setEvent_summary (x : Nat) : (setEvent k v s).summary x = s.summary x := rfl
@[simp] theorem setEvent_pendingUpgrade (x : Nat) : (setEvent k v s).pendingUpgrade x = s.pendingUpgrade x := rfl
@[simp] theorem setEvent_poolUsed : (setEvent k v s).poolUsed = s.poolUsed := rfl
@[simp] theorem setEvent_units (x : Nat) : (setEvent k v s).units x = s.units x := rfl
@[simp] theorem setEvent_bay (m : Nat) : (setEvent k v s).bay m = s.bay m := rfl
@[simp] theorem setEvent_fence (m : Nat) : (setEvent k v s).fence m = s.fence m := rfl

end setEvent_reads

section setEvents_reads
variable (s : State) (v : EventUnit)

@[simp] theorem setEvents_ports : (setEvents v s).ports = s.ports := rfl
@[simp] theorem setEvents_roster : (setEvents v s).roster = s.roster := rfl
@[simp] theorem setEvents_map : (setEvents v s).map = s.map := rfl
@[simp] theorem setEvents_loans : (setEvents v s).loans = s.loans := rfl
@[simp] theorem setEvents_clock : (setEvents v s).clock = s.clock := rfl
@[simp] theorem setEvents_bays : (setEvents v s).bays = s.bays := rfl
@[simp] theorem setEvents_watches : (setEvents v s).watches = s.watches := rfl
@[simp] theorem setEvents_fences : (setEvents v s).fences = s.fences := rfl
@[simp] theorem setEvents_loader : (setEvents v s).loader = s.loader := rfl
@[simp] theorem setEvents_events : (setEvents v s).events = v := rfl
@[simp] theorem setEvents_choices : (setEvents v s).choices = s.choices := rfl
@[simp] theorem setEvents_pending : (setEvents v s).pending = s.pending := rfl
@[simp] theorem setEvents_port (q : PortId) : (setEvents v s).port q = s.port q := rfl
@[simp] theorem setEvents_noticeFree (q : PortId) : (setEvents v s).noticeFree q = s.noticeFree q := rfl
@[simp] theorem setEvents_node (m : Nat) : (setEvents v s).node m = s.node m := rfl
@[simp] theorem setEvents_authority : (setEvents v s).authority = s.authority := rfl
@[simp] theorem setEvents_isBarred (m : Nat) : (setEvents v s).isBarred m = s.isBarred m := rfl
@[simp] theorem setEvents_extent (x : Nat) : (setEvents v s).extent x = s.extent x := rfl
@[simp] theorem setEvents_pair (x : Nat) : (setEvents v s).pair x = s.pair x := rfl
@[simp] theorem setEvents_loan (m : Nat) : (setEvents v s).loan m = s.loan m := rfl
@[simp] theorem setEvents_xl (x : Nat) : (setEvents v s).xl x = s.xl x := rfl
@[simp] theorem setEvents_loansOn (x : Nat) : (setEvents v s).loansOn x = s.loansOn x := rfl
@[simp] theorem setEvents_loansOf (m : Nat) : (setEvents v s).loansOf m = s.loansOf m := rfl
@[simp] theorem setEvents_summary (x : Nat) : (setEvents v s).summary x = s.summary x := rfl
@[simp] theorem setEvents_pendingUpgrade (x : Nat) : (setEvents v s).pendingUpgrade x = s.pendingUpgrade x := rfl
@[simp] theorem setEvents_poolUsed : (setEvents v s).poolUsed = s.poolUsed := rfl
@[simp] theorem setEvents_units (x : Nat) : (setEvents v s).units x = s.units x := rfl
@[simp] theorem setEvents_bay (m : Nat) : (setEvents v s).bay m = s.bay m := rfl
@[simp] theorem setEvents_fence (m : Nat) : (setEvents v s).fence m = s.fence m := rfl

end setEvents_reads

/-! ### Parts of a block that an update of another part leaves alone -/

section parts
variable (s : State)

@[simp] theorem setPair_extent (e : Nat) (v : Pair) (x : Nat) : (setPair e v s).extent x = s.extent x := rfl
@[simp] theorem setPair_bayExtents (e : Nat) (v : Pair) (x : Nat) : (setPair e v s).bayExtents x = s.bayExtents x := rfl
@[simp] theorem setRecords_pair (rs : Tab ExtentRec) (x : Nat) : (setRecords rs s).pair x = s.pair x := rfl
@[simp] theorem setLoan_xl (n : Nat) (r : LoanRec) (x : Nat) : (setLoan n r s).xl x = s.xl x := rfl
@[simp] theorem setLoan_poolUsed (n : Nat) (r : LoanRec) : (setLoan n r s).poolUsed = s.poolUsed := rfl
@[simp] theorem updLoan_xl (n : Nat) (f : LoanRec → LoanRec) (x : Nat) : (updLoan n f s).xl x = s.xl x := rfl
@[simp] theorem updLoan_poolUsed (n : Nat) (f : LoanRec → LoanRec) : (updLoan n f s).poolUsed = s.poolUsed := rfl
@[simp] theorem setTableWait_xl (l : List Nat) (x : Nat) : (setTableWait l s).xl x = s.xl x := rfl
@[simp] theorem setTableWait_poolUsed (l : List Nat) : (setTableWait l s).poolUsed = s.poolUsed := rfl
@[simp] theorem setXl_loan (e : Nat) (v : ExtentLoans) (m : Nat) : (setXl e v s).loan m = s.loan m := rfl
@[simp] theorem setXl_loansOn (e : Nat) (v : ExtentLoans) (x : Nat) : (setXl e v s).loansOn x = s.loansOn x := rfl
@[simp] theorem setXl_loansOf (e : Nat) (v : ExtentLoans) (m : Nat) : (setXl e v s).loansOf m = s.loansOf m := rfl
@[simp] theorem setXl_summary (e : Nat) (v : ExtentLoans) (x : Nat) : (setXl e v s).summary x = s.summary x := rfl
@[simp] theorem setXl_pendingUpgrade (e : Nat) (v : ExtentLoans) (x : Nat) : (setXl e v s).pendingUpgrade x = s.pendingUpgrade x := rfl
@[simp] theorem updXl_loan (e : Nat) (f : ExtentLoans → ExtentLoans) (m : Nat) : (updXl e f s).loan m = s.loan m := rfl
@[simp] theorem updXl_loansOn (e : Nat) (f : ExtentLoans → ExtentLoans) (x : Nat) : (updXl e f s).loansOn x = s.loansOn x := rfl
@[simp] theorem updXl_loansOf (e : Nat) (f : ExtentLoans → ExtentLoans) (m : Nat) : (updXl e f s).loansOf m = s.loansOf m := rfl
@[simp] theorem updXl_summary (e : Nat) (f : ExtentLoans → ExtentLoans) (x : Nat) : (updXl e f s).summary x = s.summary x := rfl
@[simp] theorem updXl_pendingUpgrade (e : Nat) (f : ExtentLoans → ExtentLoans) (x : Nat) : (updXl e f s).pendingUpgrade x = s.pendingUpgrade x := rfl
@[simp] theorem setTableWait_loan (l : List Nat) (m : Nat) : (setTableWait l s).loan m = s.loan m := rfl
@[simp] theorem setTableWait_loansOn (l : List Nat) (x : Nat) : (setTableWait l s).loansOn x = s.loansOn x := rfl
@[simp] theorem setTableWait_loansOf (l : List Nat) (m : Nat) : (setTableWait l s).loansOf m = s.loansOf m := rfl
@[simp] theorem setTableWait_summary (l : List Nat) (x : Nat) : (setTableWait l s).summary x = s.summary x := rfl
@[simp] theorem setTableWait_pendingUpgrade (l : List Nat) (x : Nat) : (setTableWait l s).pendingUpgrade x = s.pendingUpgrade x := rfl
@[simp] theorem setHeld_fence (h : Tab Held) (m : Nat) : (setHeld h s).fence m = s.fence m := rfl

end parts

end Sys2Proof.Machine
end

