-- ==== Sys2Proof/Laws/Frames.lean ====
section
/-! SUPPORT. What each shared operation leaves alone: for each block it does not touch, that block and its
readers are as before. -/

namespace Sys2Proof.Machine

set_option Elab.async false

/-! ### Operations applied again and again -/

theorem repeat_keeps {β : Type} {f : State → State} (g : State → β) (hf : ∀ s, g (f s) = g s) (n : Nat)
    (s : State) : g (Nat.repeat f n s) = g s := by
  induction n with
  | zero => rfl
  | succ n ih => exact (hf _).trans ih

theorem forEach_keeps {α β : Type} {xs : List α} {f : α → State → State} (g : State → β)
    (hf : ∀ x s, g (f x s) = g s) (s : State) : g (forEach xs f s) = g s := by
  unfold forEach
  induction xs generalizing s with
  | nil => rfl
  | cons x xs ih => exact (ih (f x s)).trans (hf x s)

theorem forEachFree_keeps {α β : Type} {xs : List α} {f : α → State → State} (g : State → β)
    (hc : ∀ (s : State) c, g { s with choices := c } = g s) (hf : ∀ x s, g (f x s) = g s) (s : State) :
    g (forEachFree xs f s) = g s := by
  unfold forEachFree
  have h : ∀ (l : List α) (t : State), g (l.foldl (fun s x => f x s) t) = g t := by
    intro l
    induction l with
    | nil => intro t; rfl
    | cons x l ih => intro t; exact (ih (f x t)).trans (hf x t)
  exact (h _ _).trans (hc s _)

/-- With nothing to do, nothing is done. -/
@[simp] theorem forEachFree_nil {α : Type} (f : α → State → State) (s : State) : forEachFree [] f s = s := rfl

/-- One item leaves no choice of order. -/
@[simp] theorem forEachFree_one {α : Type} (x : α) (f : α → State → State) (s : State) :
    forEachFree [x] f s = f x { s with choices := s.choices + 1 } := rfl

@[simp] theorem forEach_nil {α : Type} (f : α → State → State) (s : State) : forEach [] f s = s := rfl

@[simp] theorem onlyIf_true (f : State → State) (s : State) : onlyIf true f s = f s := rfl

@[simp] theorem onlyIf_false (f : State → State) (s : State) : onlyIf false f s = s := rfl

/-- A field that an operation keeps, it keeps where it is made conditional. -/
theorem onlyIf_keeps {β : Type} (g : State → β) {c : Bool} {f : State → State} {s : State} (h : g (f s) = g s) :
    g (onlyIf c f s) = g s := by
  cases c
  · rfl
  · exact h

section pushReady_keeps
variable (s : State) (p : PortId) (x : Ready)

@[simp] theorem pushReady_roster : (pushReady p x s).roster = s.roster := rfl
@[simp] theorem pushReady_map : (pushReady p x s).map = s.map := rfl
@[simp] theorem pushReady_loans : (pushReady p x s).loans = s.loans := rfl
@[simp] theorem pushReady_clock : (pushReady p x s).clock = s.clock := rfl
@[simp] theorem pushReady_bays : (pushReady p x s).bays = s.bays := rfl
@[simp] theorem pushReady_watches : (pushReady p x s).watches = s.watches := rfl
@[simp] theorem pushReady_fences : (pushReady p x s).fences = s.fences := rfl
@[simp] theorem pushReady_loader : (pushReady p x s).loader = s.loader := rfl
@[simp] theorem pushReady_events : (pushReady p x s).events = s.events := rfl
@[simp] theorem pushReady_choices : (pushReady p x s).choices = s.choices := rfl
@[simp] theorem pushReady_pending : (pushReady p x s).pending = s.pending := rfl
@[simp] theorem pushReady_node (m_ : Nat) : (pushReady p x s).node m_ = s.node m_ := by
  simp only [State.node, pushReady_roster]
@[simp] theorem pushReady_extent (x_ : Nat) : (pushReady p x s).extent x_ = s.extent x_ := by
  simp only [State.extent, pushReady_map]
@[simp] theorem pushReady_pair (x_ : Nat) : (pushReady p x s).pair x_ = s.pair x_ := by
  simp only [State.pair, pushReady_map]
@[simp] theorem pushReady_loan (m_ : Nat) : (pushReady p x s).loan m_ = s.loan m_ := by
  simp only [State.loan, pushReady_loans]
@[simp] theorem pushReady_xl (x_ : Nat) : (pushReady p x s).xl x_ = s.xl x_ := by
  simp only [State.xl, pushReady_loans]
@[simp] theorem pushReady_summary (x_ : Nat) : (pushReady p x s).summary x_ = s.summary x_ := by
  simp only [State.summary, State.loansOn, pushReady_loans]
@[simp] theorem pushReady_bay (m_ : Nat) : (pushReady p x s).bay m_ = s.bay m_ := by
  simp only [State.bay, pushReady_bays]
@[simp] theorem pushReady_event (m_ : Nat) : (pushReady p x s).event m_ = s.event m_ := by
  simp only [State.event, pushReady_events]

end pushReady_keeps

section pushNotice_keeps
variable (s : State) (p : PortId) (o : OutFrame)

@[simp] theorem pushNotice_roster : (pushNotice p o s).roster = s.roster := rfl
@[simp] theorem pushNotice_map : (pushNotice p o s).map = s.map := rfl
@[simp] theorem pushNotice_loans : (pushNotice p o s).loans = s.loans := rfl
@[simp] theorem pushNotice_clock : (pushNotice p o s).clock = s.clock := rfl
@[simp] theorem pushNotice_bays : (pushNotice p o s).bays = s.bays := rfl
@[simp] theorem pushNotice_watches : (pushNotice p o s).watches = s.watches := rfl
@[simp] theorem pushNotice_fences : (pushNotice p o s).fences = s.fences := rfl
@[simp] theorem pushNotice_loader : (pushNotice p o s).loader = s.loader := rfl
@[simp] theorem pushNotice_events : (pushNotice p o s).events = s.events := rfl
@[simp] theorem pushNotice_choices : (pushNotice p o s).choices = s.choices := rfl
@[simp] theorem pushNotice_pending : (pushNotice p o s).pending = s.pending := rfl
@[simp] theorem pushNotice_node (m_ : Nat) : (pushNotice p o s).node m_ = s.node m_ := by
  simp only [State.node, pushNotice_roster]
@[simp] theorem pushNotice_extent (x_ : Nat) : (pushNotice p o s).extent x_ = s.extent x_ := by
  simp only [State.extent, pushNotice_map]
@[simp] theorem pushNotice_pair (x_ : Nat) : (pushNotice p o s).pair x_ = s.pair x_ := by
  simp only [State.pair, pushNotice_map]
@[simp] theorem pushNotice_loan (m_ : Nat) : (pushNotice p o s).loan m_ = s.loan m_ := by
  simp only [State.loan, pushNotice_loans]
@[simp] theorem pushNotice_xl (x_ : Nat) : (pushNotice p o s).xl x_ = s.xl x_ := by
  simp only [State.xl, pushNotice_loans]
@[simp] theorem pushNotice_summary (x_ : Nat) : (pushNotice p o s).summary x_ = s.summary x_ := by
  simp only [State.summary, State.loansOn, pushNotice_loans]
@[simp] theorem pushNotice_bay (m_ : Nat) : (pushNotice p o s).bay m_ = s.bay m_ := by
  simp only [State.bay, pushNotice_bays]
@[simp] theorem pushNotice_event (m_ : Nat) : (pushNotice p o s).event m_ = s.event m_ := by
  simp only [State.event, pushNotice_events]

end pushNotice_keeps

section takeReservation_keeps
variable (s : State) (p : PortId)

@[simp] theorem takeReservation_roster : (takeReservation p s).roster = s.roster := rfl
@[simp] theorem takeReservation_map : (takeReservation p s).map = s.map := rfl
@[simp] theorem takeReservation_loans : (takeReservation p s).loans = s.loans := rfl
@[simp] theorem takeReservation_clock : (takeReservation p s).clock = s.clock := rfl
@[simp] theorem takeReservation_bays : (takeReservation p s).bays = s.bays := rfl
@[simp] theorem takeReservation_watches : (takeReservation p s).watches = s.watches := rfl
@[simp] theorem takeReservation_fences : (takeReservation p s).fences = s.fences := rfl
@[simp] theorem takeReservation_loader : (takeReservation p s).loader = s.loader := rfl
@[simp] theorem takeReservation_events : (takeReservation p s).events = s.events := rfl
@[simp] theorem takeReservation_choices : (takeReservation p s).choices = s.choices := rfl
@[simp] theorem takeReservation_pending : (takeReservation p s).pending = s.pending := rfl
@[simp] theorem takeReservation_node (m_ : Nat) : (takeReservation p s).node m_ = s.node m_ := by
  simp only [State.node, takeReservation_roster]
@[simp] theorem takeReservation_extent (x_ : Nat) : (takeReservation p s).extent x_ = s.extent x_ := by
  simp only [State.extent, takeReservation_map]
@[simp] theorem takeReservation_pair (x_ : Nat) : (takeReservation p s).pair x_ = s.pair x_ := by
  simp only [State.pair, takeReservation_map]
@[simp] theorem takeReservation_loan (m_ : Nat) : (takeReservation p s).loan m_ = s.loan m_ := by
  simp only [State.loan, takeReservation_loans]
@[simp] theorem takeReservation_xl (x_ : Nat) : (takeReservation p s).xl x_ = s.xl x_ := by
  simp only [State.xl, takeReservation_loans]
@[simp] theorem takeReservation_summary (x_ : Nat) : (takeReservation p s).summary x_ = s.summary x_ := by
  simp only [State.summary, State.loansOn, takeReservation_loans]
@[simp] theorem takeReservation_bay (m_ : Nat) : (takeReservation p s).bay m_ = s.bay m_ := by
  simp only [State.bay, takeReservation_bays]
@[simp] theorem takeReservation_event (m_ : Nat) : (takeReservation p s).event m_ = s.event m_ := by
  simp only [State.event, takeReservation_events]

end takeReservation_keeps

section updNode_keeps
variable (s : State) (n : Nat) (f : NodeRec → NodeRec)

@[simp] theorem updNode_ports : (updNode n f s).ports = s.ports := by
  unfold updNode; split <;> rfl
@[simp] theorem updNode_map : (updNode n f s).map = s.map := by
  unfold updNode; split <;> rfl
@[simp] theorem updNode_loans : (updNode n f s).loans = s.loans := by
  unfold updNode; split <;> rfl
@[simp] theorem updNode_clock : (updNode n f s).clock = s.clock := by
  unfold updNode; split <;> rfl
@[simp] theorem updNode_bays : (updNode n f s).bays = s.bays := by
  unfold updNode; split <;> rfl
@[simp] theorem updNode_watches : (updNode n f s).watches = s.watches := by
  unfold updNode; split <;> rfl
@[simp] theorem updNode_fences : (updNode n f s).fences = s.fences := by
  unfold updNode; split <;> rfl
@[simp] theorem updNode_loader : (updNode n f s).loader = s.loader := by
  unfold updNode; split <;> rfl
@[simp] theorem updNode_events : (updNode n f s).events = s.events := by
  unfold updNode; split <;> rfl
@[simp] theorem updNode_choices : (updNode n f s).choices = s.choices := by
  unfold updNode; split <;> rfl
@[simp] theorem updNode_pending : (updNode n f s).pending = s.pending := by
  unfold updNode; split <;> rfl
@[simp] theorem updNode_port (q_ : PortId) : (updNode n f s).port q_ = s.port q_ := by
  simp only [State.port, updNode_ports]
@[simp] theorem updNode_extent (x_ : Nat) : (updNode n f s).extent x_ = s.extent x_ := by
  simp only [State.extent, updNode_map]
@[simp] theorem updNode_pair (x_ : Nat) : (updNode n f s).pair x_ = s.pair x_ := by
  simp only [State.pair, updNode_map]
@[simp] theorem updNode_loan (m_ : Nat) : (updNode n f s).loan m_ = s.loan m_ := by
  simp only [State.loan, updNode_loans]
@[simp] theorem updNode_xl (x_ : Nat) : (updNode n f s).xl x_ = s.xl x_ := by
  simp only [State.xl, updNode_loans]
@[simp] theorem updNode_summary (x_ : Nat) : (updNode n f s).summary x_ = s.summary x_ := by
  simp only [State.summary, State.loansOn, updNode_loans]
@[simp] theorem updNode_bay (m_ : Nat) : (updNode n f s).bay m_ = s.bay m_ := by
  simp only [State.bay, updNode_bays]
@[simp] theorem updNode_event (m_ : Nat) : (updNode n f s).event m_ = s.event m_ := by
  simp only [State.event, updNode_events]

end updNode_keeps

section freeTag_keeps
variable (s : State) (n t : Nat)

@[simp] theorem freeTag_ports : (freeTag n t s).ports = s.ports := by
  simp [freeTag]
@[simp] theorem freeTag_map : (freeTag n t s).map = s.map := by
  simp [freeTag]
@[simp] theorem freeTag_loans : (freeTag n t s).loans = s.loans := by
  simp [freeTag]
@[simp] theorem freeTag_clock : (freeTag n t s).clock = s.clock := by
  simp [freeTag]
@[simp] theorem freeTag_bays : (freeTag n t s).bays = s.bays := by
  simp [freeTag]
@[simp] theorem freeTag_watches : (freeTag n t s).watches = s.watches := by
  simp [freeTag]
@[simp] theorem freeTag_fences : (freeTag n t s).fences = s.fences := by
  simp [freeTag]
@[simp] theorem freeTag_loader : (freeTag n t s).loader = s.loader := by
  simp [freeTag]
@[simp] theorem freeTag_events : (freeTag n t s).events = s.events := by
  simp [freeTag]
@[simp] theorem freeTag_choices : (freeTag n t s).choices = s.choices := by
  simp [freeTag]
@[simp] theorem freeTag_pending : (freeTag n t s).pending = s.pending := by
  simp [freeTag]
@[simp] theorem freeTag_port (q_ : PortId) : (freeTag n t s).port q_ = s.port q_ := by
  simp only [State.port, freeTag_ports]
@[simp] theorem freeTag_extent (x_ : Nat) : (freeTag n t s).extent x_ = s.extent x_ := by
  simp only [State.extent, freeTag_map]
@[simp] theorem freeTag_pair (x_ : Nat) : (freeTag n t s).pair x_ = s.pair x_ := by
  simp only [State.pair, freeTag_map]
@[simp] theorem freeTag_loan (m_ : Nat) : (freeTag n t s).loan m_ = s.loan m_ := by
  simp only [State.loan, freeTag_loans]
@[simp] theorem freeTag_xl (x_ : Nat) : (freeTag n t s).xl x_ = s.xl x_ := by
  simp only [State.xl, freeTag_loans]
@[simp] theorem freeTag_summary (x_ : Nat) : (freeTag n t s).summary x_ = s.summary x_ := by
  simp only [State.summary, State.loansOn, freeTag_loans]
@[simp] theorem freeTag_bay (m_ : Nat) : (freeTag n t s).bay m_ = s.bay m_ := by
  simp only [State.bay, freeTag_bays]
@[simp] theorem freeTag_event (m_ : Nat) : (freeTag n t s).event m_ = s.event m_ := by
  simp only [State.event, freeTag_events]

end freeTag_keeps

section emit_keeps
variable (s : State) (q : Req) (frees : Bool) (o : OutFrame)

@[simp] theorem emit_map : (emit q frees o s).map = s.map := by
  unfold emit; split
  · simp
  · split <;> simp
@[simp] theorem emit_loans : (emit q frees o s).loans = s.loans := by
  unfold emit; split
  · simp
  · split <;> simp
@[simp] theorem emit_clock : (emit q frees o s).clock = s.clock := by
  unfold emit; split
  · simp
  · split <;> simp
@[simp] theorem emit_bays : (emit q frees o s).bays = s.bays := by
  unfold emit; split
  · simp
  · split <;> simp
@[simp] theorem emit_watches : (emit q frees o s).watches = s.watches := by
  unfold emit; split
  · simp
  · split <;> simp
@[simp] theorem emit_fences : (emit q frees o s).fences = s.fences := by
  unfold emit; split
  · simp
  · split <;> simp
@[simp] theorem emit_loader : (emit q frees o s).loader = s.loader := by
  unfold emit; split
  · simp
  · split <;> simp
@[simp] theorem emit_events : (emit q frees o s).events = s.events := by
  unfold emit; split
  · simp
  · split <;> simp
@[simp] theorem emit_choices : (emit q frees o s).choices = s.choices := by
  unfold emit; split
  · simp
  · split <;> simp
@[simp] theorem emit_pending : (emit q frees o s).pending = s.pending := by
  unfold emit; split
  · simp
  · split <;> simp
@[simp] theorem emit_extent (x_ : Nat) : (emit q frees o s).extent x_ = s.extent x_ := by
  simp only [State.extent, emit_map]
@[simp] theorem emit_pair (x_ : Nat) : (emit q frees o s).pair x_ = s.pair x_ := by
  simp only [State.pair, emit_map]
@[simp] theorem emit_loan (m_ : Nat) : (emit q frees o s).loan m_ = s.loan m_ := by
  simp only [State.loan, emit_loans]
@[simp] theorem emit_xl (x_ : Nat) : (emit q frees o s).xl x_ = s.xl x_ := by
  simp only [State.xl, emit_loans]
@[simp] theorem emit_summary (x_ : Nat) : (emit q frees o s).summary x_ = s.summary x_ := by
  simp only [State.summary, State.loansOn, emit_loans]
@[simp] theorem emit_bay (m_ : Nat) : (emit q frees o s).bay m_ = s.bay m_ := by
  simp only [State.bay, emit_bays]
@[simp] theorem emit_event (m_ : Nat) : (emit q frees o s).event m_ = s.event m_ := by
  simp only [State.event, emit_events]

end emit_keeps

section replyWith_keeps
variable (s : State) (q : Req) (st : Status) (fields : OutFrame → OutFrame)

@[simp] theorem replyWith_map : (replyWith q st fields s).map = s.map := by
  simp [replyWith]
@[simp] theorem replyWith_loans : (replyWith q st fields s).loans = s.loans := by
  simp [replyWith]
@[simp] theorem replyWith_clock : (replyWith q st fields s).clock = s.clock := by
  simp [replyWith]
@[simp] theorem replyWith_bays : (replyWith q st fields s).bays = s.bays := by
  simp [replyWith]
@[simp] theorem replyWith_watches : (replyWith q st fields s).watches = s.watches := by
  simp [replyWith]
@[simp] theorem replyWith_fences : (replyWith q st fields s).fences = s.fences := by
  simp [replyWith]
@[simp] theorem replyWith_loader : (replyWith q st fields s).loader = s.loader := by
  simp [replyWith]
@[simp] theorem replyWith_events : (replyWith q st fields s).events = s.events := by
  simp [replyWith]
@[simp] theorem replyWith_choices : (replyWith q st fields s).choices = s.choices := by
  simp [replyWith]
@[simp] theorem replyWith_pending : (replyWith q st fields s).pending = s.pending := by
  simp [replyWith]
@[simp] theorem replyWith_extent (x_ : Nat) : (replyWith q st fields s).extent x_ = s.extent x_ := by
  simp only [State.extent, replyWith_map]
@[simp] theorem replyWith_pair (x_ : Nat) : (replyWith q st fields s).pair x_ = s.pair x_ := by
  simp only [State.pair, replyWith_map]
@[simp] theorem replyWith_loan (m_ : Nat) : (replyWith q st fields s).loan m_ = s.loan m_ := by
  simp only [State.loan, replyWith_loans]
@[simp] theorem replyWith_xl (x_ : Nat) : (replyWith q st fields s).xl x_ = s.xl x_ := by
  simp only [State.xl, replyWith_loans]
@[simp] theorem replyWith_summary (x_ : Nat) : (replyWith q st fields s).summary x_ = s.summary x_ := by
  simp only [State.summary, State.loansOn, replyWith_loans]
@[simp] theorem replyWith_bay (m_ : Nat) : (replyWith q st fields s).bay m_ = s.bay m_ := by
  simp only [State.bay, replyWith_bays]
@[simp] theorem replyWith_event (m_ : Nat) : (replyWith q st fields s).event m_ = s.event m_ := by
  simp only [State.event, replyWith_events]

end replyWith_keeps

section reply_keeps
variable (s : State) (q : Req) (st : Status)

@[simp] theorem reply_map : (reply q st s).map = s.map := by
  simp [reply]
@[simp] theorem reply_loans : (reply q st s).loans = s.loans := by
  simp [reply]
@[simp] theorem reply_clock : (reply q st s).clock = s.clock := by
  simp [reply]
@[simp] theorem reply_bays : (reply q st s).bays = s.bays := by
  simp [reply]
@[simp] theorem reply_watches : (reply q st s).watches = s.watches := by
  simp [reply]
@[simp] theorem reply_fences : (reply q st s).fences = s.fences := by
  simp [reply]
@[simp] theorem reply_loader : (reply q st s).loader = s.loader := by
  simp [reply]
@[simp] theorem reply_events : (reply q st s).events = s.events := by
  simp [reply]
@[simp] theorem reply_choices : (reply q st s).choices = s.choices := by
  simp [reply]
@[simp] theorem reply_pending : (reply q st s).pending = s.pending := by
  simp [reply]
@[simp] theorem reply_extent (x_ : Nat) : (reply q st s).extent x_ = s.extent x_ := by
  simp only [State.extent, reply_map]
@[simp] theorem reply_pair (x_ : Nat) : (reply q st s).pair x_ = s.pair x_ := by
  simp only [State.pair, reply_map]
@[simp] theorem reply_loan (m_ : Nat) : (reply q st s).loan m_ = s.loan m_ := by
  simp only [State.loan, reply_loans]
@[simp] theorem reply_xl (x_ : Nat) : (reply q st s).xl x_ = s.xl x_ := by
  simp only [State.xl, reply_loans]
@[simp] theorem reply_summary (x_ : Nat) : (reply q st s).summary x_ = s.summary x_ := by
  simp only [State.summary, State.loansOn, reply_loans]
@[simp] theorem reply_bay (m_ : Nat) : (reply q st s).bay m_ = s.bay m_ := by
  simp only [State.bay, reply_bays]
@[simp] theorem reply_event (m_ : Nat) : (reply q st s).event m_ = s.event m_ := by
  simp only [State.event, reply_events]

end reply_keeps

section refuseAtIngress_keeps
variable (s : State) (q : Req) (st : Status)

@[simp] theorem refuseAtIngress_map : (refuseAtIngress q st s).map = s.map := by
  simp [refuseAtIngress]
@[simp] theorem refuseAtIngress_loans : (refuseAtIngress q st s).loans = s.loans := by
  simp [refuseAtIngress]
@[simp] theorem refuseAtIngress_clock : (refuseAtIngress q st s).clock = s.clock := by
  simp [refuseAtIngress]
@[simp] theorem refuseAtIngress_bays : (refuseAtIngress q st s).bays = s.bays := by
  simp [refuseAtIngress]
@[simp] theorem refuseAtIngress_watches : (refuseAtIngress q st s).watches = s.watches := by
  simp [refuseAtIngress]
@[simp] theorem refuseAtIngress_fences : (refuseAtIngress q st s).fences = s.fences := by
  simp [refuseAtIngress]
@[simp] theorem refuseAtIngress_loader : (refuseAtIngress q st s).loader = s.loader := by
  simp [refuseAtIngress]
@[simp] theorem refuseAtIngress_events : (refuseAtIngress q st s).events = s.events := by
  simp [refuseAtIngress]
@[simp] theorem refuseAtIngress_choices : (refuseAtIngress q st s).choices = s.choices := by
  simp [refuseAtIngress]
@[simp] theorem refuseAtIngress_pending : (refuseAtIngress q st s).pending = s.pending := by
  simp [refuseAtIngress]
@[simp] theorem refuseAtIngress_extent (x_ : Nat) : (refuseAtIngress q st s).extent x_ = s.extent x_ := by
  simp only [State.extent, refuseAtIngress_map]
@[simp] theorem refuseAtIngress_pair (x_ : Nat) : (refuseAtIngress q st s).pair x_ = s.pair x_ := by
  simp only [State.pair, refuseAtIngress_map]
@[simp] theorem refuseAtIngress_loan (m_ : Nat) : (refuseAtIngress q st s).loan m_ = s.loan m_ := by
  simp only [State.loan, refuseAtIngress_loans]
@[simp] theorem refuseAtIngress_xl (x_ : Nat) : (refuseAtIngress q st s).xl x_ = s.xl x_ := by
  simp only [State.xl, refuseAtIngress_loans]
@[simp] theorem refuseAtIngress_summary (x_ : Nat) : (refuseAtIngress q st s).summary x_ = s.summary x_ := by
  simp only [State.summary, State.loansOn, refuseAtIngress_loans]
@[simp] theorem refuseAtIngress_bay (m_ : Nat) : (refuseAtIngress q st s).bay m_ = s.bay m_ := by
  simp only [State.bay, refuseAtIngress_bays]
@[simp] theorem refuseAtIngress_event (m_ : Nat) : (refuseAtIngress q st s).event m_ = s.event m_ := by
  simp only [State.event, refuseAtIngress_events]

end refuseAtIngress_keeps

section replyReset_keeps
variable (s : State) (q : Req)

@[simp] theorem replyReset_map : (replyReset q s).map = s.map := by
  simp [replyReset]
@[simp] theorem replyReset_loans : (replyReset q s).loans = s.loans := by
  simp [replyReset]
@[simp] theorem replyReset_clock : (replyReset q s).clock = s.clock := by
  simp [replyReset]
@[simp] theorem replyReset_bays : (replyReset q s).bays = s.bays := by
  simp [replyReset]
@[simp] theorem replyReset_watches : (replyReset q s).watches = s.watches := by
  simp [replyReset]
@[simp] theorem replyReset_fences : (replyReset q s).fences = s.fences := by
  simp [replyReset]
@[simp] theorem replyReset_loader : (replyReset q s).loader = s.loader := by
  simp [replyReset]
@[simp] theorem replyReset_events : (replyReset q s).events = s.events := by
  simp [replyReset]
@[simp] theorem replyReset_choices : (replyReset q s).choices = s.choices := by
  simp [replyReset]
@[simp] theorem replyReset_pending : (replyReset q s).pending = s.pending := by
  simp [replyReset]
@[simp] theorem replyReset_extent (x_ : Nat) : (replyReset q s).extent x_ = s.extent x_ := by
  simp only [State.extent, replyReset_map]
@[simp] theorem replyReset_pair (x_ : Nat) : (replyReset q s).pair x_ = s.pair x_ := by
  simp only [State.pair, replyReset_map]
@[simp] theorem replyReset_loan (m_ : Nat) : (replyReset q s).loan m_ = s.loan m_ := by
  simp only [State.loan, replyReset_loans]
@[simp] theorem replyReset_xl (x_ : Nat) : (replyReset q s).xl x_ = s.xl x_ := by
  simp only [State.xl, replyReset_loans]
@[simp] theorem replyReset_summary (x_ : Nat) : (replyReset q s).summary x_ = s.summary x_ := by
  simp only [State.summary, State.loansOn, replyReset_loans]
@[simp] theorem replyReset_bay (m_ : Nat) : (replyReset q s).bay m_ = s.bay m_ := by
  simp only [State.bay, replyReset_bays]
@[simp] theorem replyReset_event (m_ : Nat) : (replyReset q s).event m_ = s.event m_ := by
  simp only [State.event, replyReset_events]

end replyReset_keeps

section replyGranted_keeps
variable (s : State) (q : Req) (slot : Nat)

@[simp] theorem replyGranted_map : (replyGranted q slot s).map = s.map := by
  simp [replyGranted]
@[simp] theorem replyGranted_loans : (replyGranted q slot s).loans = s.loans := by
  simp [replyGranted]
@[simp] theorem replyGranted_clock : (replyGranted q slot s).clock = s.clock := by
  simp [replyGranted]
@[simp] theorem replyGranted_bays : (replyGranted q slot s).bays = s.bays := by
  simp [replyGranted]
@[simp] theorem replyGranted_watches : (replyGranted q slot s).watches = s.watches := by
  simp [replyGranted]
@[simp] theorem replyGranted_fences : (replyGranted q slot s).fences = s.fences := by
  simp [replyGranted]
@[simp] theorem replyGranted_loader : (replyGranted q slot s).loader = s.loader := by
  simp [replyGranted]
@[simp] theorem replyGranted_events : (replyGranted q slot s).events = s.events := by
  simp [replyGranted]
@[simp] theorem replyGranted_choices : (replyGranted q slot s).choices = s.choices := by
  simp [replyGranted]
@[simp] theorem replyGranted_pending : (replyGranted q slot s).pending = s.pending := by
  simp [replyGranted]
@[simp] theorem replyGranted_extent (x_ : Nat) : (replyGranted q slot s).extent x_ = s.extent x_ := by
  simp only [State.extent, replyGranted_map]
@[simp] theorem replyGranted_pair (x_ : Nat) : (replyGranted q slot s).pair x_ = s.pair x_ := by
  simp only [State.pair, replyGranted_map]
@[simp] theorem replyGranted_loan (m_ : Nat) : (replyGranted q slot s).loan m_ = s.loan m_ := by
  simp only [State.loan, replyGranted_loans]
@[simp] theorem replyGranted_xl (x_ : Nat) : (replyGranted q slot s).xl x_ = s.xl x_ := by
  simp only [State.xl, replyGranted_loans]
@[simp] theorem replyGranted_summary (x_ : Nat) : (replyGranted q slot s).summary x_ = s.summary x_ := by
  simp only [State.summary, State.loansOn, replyGranted_loans]
@[simp] theorem replyGranted_bay (m_ : Nat) : (replyGranted q slot s).bay m_ = s.bay m_ := by
  simp only [State.bay, replyGranted_bays]
@[simp] theorem replyGranted_event (m_ : Nat) : (replyGranted q slot s).event m_ = s.event m_ := by
  simp only [State.event, replyGranted_events]

end replyGranted_keeps

section replyOwed_keeps
variable (s : State) (owed : Option Req) (st : Status)

@[simp] theorem replyOwed_map : (replyOwed owed st s).map = s.map := by
  unfold replyOwed; split <;> simp
@[simp] theorem replyOwed_loans : (replyOwed owed st s).loans = s.loans := by
  unfold replyOwed; split <;> simp
@[simp] theorem replyOwed_clock : (replyOwed owed st s).clock = s.clock := by
  unfold replyOwed; split <;> simp
@[simp] theorem replyOwed_bays : (replyOwed owed st s).bays = s.bays := by
  unfold replyOwed; split <;> simp
@[simp] theorem replyOwed_watches : (replyOwed owed st s).watches = s.watches := by
  unfold replyOwed; split <;> simp
@[simp] theorem replyOwed_fences : (replyOwed owed st s).fences = s.fences := by
  unfold replyOwed; split <;> simp
@[simp] theorem replyOwed_loader : (replyOwed owed st s).loader = s.loader := by
  unfold replyOwed; split <;> simp
@[simp] theorem replyOwed_events : (replyOwed owed st s).events = s.events := by
  unfold replyOwed; split <;> simp
@[simp] theorem replyOwed_choices : (replyOwed owed st s).choices = s.choices := by
  unfold replyOwed; split <;> simp
@[simp] theorem replyOwed_pending : (replyOwed owed st s).pending = s.pending := by
  unfold replyOwed; split <;> simp
@[simp] theorem replyOwed_extent (x_ : Nat) : (replyOwed owed st s).extent x_ = s.extent x_ := by
  simp only [State.extent, replyOwed_map]
@[simp] theorem replyOwed_pair (x_ : Nat) : (replyOwed owed st s).pair x_ = s.pair x_ := by
  simp only [State.pair, replyOwed_map]
@[simp] theorem replyOwed_loan (m_ : Nat) : (replyOwed owed st s).loan m_ = s.loan m_ := by
  simp only [State.loan, replyOwed_loans]
@[simp] theorem replyOwed_xl (x_ : Nat) : (replyOwed owed st s).xl x_ = s.xl x_ := by
  simp only [State.xl, replyOwed_loans]
@[simp] theorem replyOwed_summary (x_ : Nat) : (replyOwed owed st s).summary x_ = s.summary x_ := by
  simp only [State.summary, State.loansOn, replyOwed_loans]
@[simp] theorem replyOwed_bay (m_ : Nat) : (replyOwed owed st s).bay m_ = s.bay m_ := by
  simp only [State.bay, replyOwed_bays]
@[simp] theorem replyOwed_event (m_ : Nat) : (replyOwed owed st s).event m_ = s.event m_ := by
  simp only [State.event, replyOwed_events]

end replyOwed_keeps

section resetOwed_keeps
variable (s : State) (owed : Option Req)

@[simp] theorem resetOwed_map : (resetOwed owed s).map = s.map := by
  unfold resetOwed; split <;> simp
@[simp] theorem resetOwed_loans : (resetOwed owed s).loans = s.loans := by
  unfold resetOwed; split <;> simp
@[simp] theorem resetOwed_clock : (resetOwed owed s).clock = s.clock := by
  unfold resetOwed; split <;> simp
@[simp] theorem resetOwed_bays : (resetOwed owed s).bays = s.bays := by
  unfold resetOwed; split <;> simp
@[simp] theorem resetOwed_watches : (resetOwed owed s).watches = s.watches := by
  unfold resetOwed; split <;> simp
@[simp] theorem resetOwed_fences : (resetOwed owed s).fences = s.fences := by
  unfold resetOwed; split <;> simp
@[simp] theorem resetOwed_loader : (resetOwed owed s).loader = s.loader := by
  unfold resetOwed; split <;> simp
@[simp] theorem resetOwed_events : (resetOwed owed s).events = s.events := by
  unfold resetOwed; split <;> simp
@[simp] theorem resetOwed_choices : (resetOwed owed s).choices = s.choices := by
  unfold resetOwed; split <;> simp
@[simp] theorem resetOwed_pending : (resetOwed owed s).pending = s.pending := by
  unfold resetOwed; split <;> simp
@[simp] theorem resetOwed_extent (x_ : Nat) : (resetOwed owed s).extent x_ = s.extent x_ := by
  simp only [State.extent, resetOwed_map]
@[simp] theorem resetOwed_pair (x_ : Nat) : (resetOwed owed s).pair x_ = s.pair x_ := by
  simp only [State.pair, resetOwed_map]
@[simp] theorem resetOwed_loan (m_ : Nat) : (resetOwed owed s).loan m_ = s.loan m_ := by
  simp only [State.loan, resetOwed_loans]
@[simp] theorem resetOwed_xl (x_ : Nat) : (resetOwed owed s).xl x_ = s.xl x_ := by
  simp only [State.xl, resetOwed_loans]
@[simp] theorem resetOwed_summary (x_ : Nat) : (resetOwed owed s).summary x_ = s.summary x_ := by
  simp only [State.summary, State.loansOn, resetOwed_loans]
@[simp] theorem resetOwed_bay (m_ : Nat) : (resetOwed owed s).bay m_ = s.bay m_ := by
  simp only [State.bay, resetOwed_bays]
@[simp] theorem resetOwed_event (m_ : Nat) : (resetOwed owed s).event m_ = s.event m_ := by
  simp only [State.event, resetOwed_events]

end resetOwed_keeps

section discardReady_keeps
variable (s : State) (x : Ready)

@[simp] theorem discardReady_ports : (discardReady x s).ports = s.ports := by
  unfold discardReady onlyIf; split <;> simp
@[simp] theorem discardReady_map : (discardReady x s).map = s.map := by
  unfold discardReady onlyIf; split <;> simp
@[simp] theorem discardReady_loans : (discardReady x s).loans = s.loans := by
  unfold discardReady onlyIf; split <;> simp
@[simp] theorem discardReady_clock : (discardReady x s).clock = s.clock := by
  unfold discardReady onlyIf; split <;> simp
@[simp] theorem discardReady_bays : (discardReady x s).bays = s.bays := by
  unfold discardReady onlyIf; split <;> simp
@[simp] theorem discardReady_watches : (discardReady x s).watches = s.watches := by
  unfold discardReady onlyIf; split <;> simp
@[simp] theorem discardReady_fences : (discardReady x s).fences = s.fences := by
  unfold discardReady onlyIf; split <;> simp
@[simp] theorem discardReady_loader : (discardReady x s).loader = s.loader := by
  unfold discardReady onlyIf; split <;> simp
@[simp] theorem discardReady_events : (discardReady x s).events = s.events := by
  unfold discardReady onlyIf; split <;> simp
@[simp] theorem discardReady_choices : (discardReady x s).choices = s.choices := by
  unfold discardReady onlyIf; split <;> simp
@[simp] theorem discardReady_pending : (discardReady x s).pending = s.pending := by
  unfold discardReady onlyIf; split <;> simp
@[simp] theorem discardReady_port (q_ : PortId) : (discardReady x s).port q_ = s.port q_ := by
  simp only [State.port, discardReady_ports]
@[simp] theorem discardReady_extent (x_ : Nat) : (discardReady x s).extent x_ = s.extent x_ := by
  simp only [State.extent, discardReady_map]
@[simp] theorem discardReady_pair (x_ : Nat) : (discardReady x s).pair x_ = s.pair x_ := by
  simp only [State.pair, discardReady_map]
@[simp] theorem discardReady_loan (m_ : Nat) : (discardReady x s).loan m_ = s.loan m_ := by
  simp only [State.loan, discardReady_loans]
@[simp] theorem discardReady_xl (x_ : Nat) : (discardReady x s).xl x_ = s.xl x_ := by
  simp only [State.xl, discardReady_loans]
@[simp] theorem discardReady_summary (x_ : Nat) : (discardReady x s).summary x_ = s.summary x_ := by
  simp only [State.summary, State.loansOn, discardReady_loans]
@[simp] theorem discardReady_bay (m_ : Nat) : (discardReady x s).bay m_ = s.bay m_ := by
  simp only [State.bay, discardReady_bays]
@[simp] theorem discardReady_event (m_ : Nat) : (discardReady x s).event m_ = s.event m_ := by
  simp only [State.event, discardReady_events]

end discardReady_keeps

section makeEventNotice_keeps
variable (s : State) (n : Nat) (p : PortId) (k : Nat)

@[simp] theorem makeEventNotice_roster : (makeEventNotice n p k s).roster = s.roster := by
  simp [makeEventNotice]
@[simp] theorem makeEventNotice_map : (makeEventNotice n p k s).map = s.map := by
  simp [makeEventNotice]
@[simp] theorem makeEventNotice_loans : (makeEventNotice n p k s).loans = s.loans := by
  simp [makeEventNotice]
@[simp] theorem makeEventNotice_clock : (makeEventNotice n p k s).clock = s.clock := by
  simp [makeEventNotice]
@[simp] theorem makeEventNotice_bays : (makeEventNotice n p k s).bays = s.bays := by
  simp [makeEventNotice]
@[simp] theorem makeEventNotice_watches : (makeEventNotice n p k s).watches = s.watches := by
  simp [makeEventNotice]
@[simp] theorem makeEventNotice_fences : (makeEventNotice n p k s).fences = s.fences := by
  simp [makeEventNotice]
@[simp] theorem makeEventNotice_loader : (makeEventNotice n p k s).loader = s.loader := by
  simp [makeEventNotice]
@[simp] theorem makeEventNotice_choices : (makeEventNotice n p k s).choices = s.choices := by
  simp [makeEventNotice]
@[simp] theorem makeEventNotice_pending : (makeEventNotice n p k s).pending = s.pending := by
  simp [makeEventNotice]
@[simp] theorem makeEventNotice_node (m_ : Nat) : (makeEventNotice n p k s).node m_ = s.node m_ := by
  simp only [State.node, makeEventNotice_roster]
@[simp] theorem makeEventNotice_extent (x_ : Nat) : (makeEventNotice n p k s).extent x_ = s.extent x_ := by
  simp only [State.extent, makeEventNotice_map]
@[simp] theorem makeEventNotice_pair (x_ : Nat) : (makeEventNotice n p k s).pair x_ = s.pair x_ := by
  simp only [State.pair, makeEventNotice_map]
@[simp] theorem makeEventNotice_loan (m_ : Nat) : (makeEventNotice n p k s).loan m_ = s.loan m_ := by
  simp only [State.loan, makeEventNotice_loans]
@[simp] theorem makeEventNotice_xl (x_ : Nat) : (makeEventNotice n p k s).xl x_ = s.xl x_ := by
  simp only [State.xl, makeEventNotice_loans]
@[simp] theorem makeEventNotice_summary (x_ : Nat) : (makeEventNotice n p k s).summary x_ = s.summary x_ := by
  simp only [State.summary, State.loansOn, makeEventNotice_loans]
@[simp] theorem makeEventNotice_bay (m_ : Nat) : (makeEventNotice n p k s).bay m_ = s.bay m_ := by
  simp only [State.bay, makeEventNotice_bays]

end makeEventNotice_keeps

section noticeOnce_keeps
variable (s : State)

@[simp] theorem noticeOnce_roster : (noticeOnce s).roster = s.roster := by
  unfold noticeOnce; repeat' split
  all_goals simp
@[simp] theorem noticeOnce_map : (noticeOnce s).map = s.map := by
  unfold noticeOnce; repeat' split
  all_goals simp
@[simp] theorem noticeOnce_loans : (noticeOnce s).loans = s.loans := by
  unfold noticeOnce; repeat' split
  all_goals simp
@[simp] theorem noticeOnce_clock : (noticeOnce s).clock = s.clock := by
  unfold noticeOnce; repeat' split
  all_goals simp
@[simp] theorem noticeOnce_bays : (noticeOnce s).bays = s.bays := by
  unfold noticeOnce; repeat' split
  all_goals simp
@[simp] theorem noticeOnce_watches : (noticeOnce s).watches = s.watches := by
  unfold noticeOnce; repeat' split
  all_goals simp
@[simp] theorem noticeOnce_fences : (noticeOnce s).fences = s.fences := by
  unfold noticeOnce; repeat' split
  all_goals simp
@[simp] theorem noticeOnce_loader : (noticeOnce s).loader = s.loader := by
  unfold noticeOnce; repeat' split
  all_goals simp
@[simp] theorem noticeOnce_choices : (noticeOnce s).choices = s.choices := by
  unfold noticeOnce; repeat' split
  all_goals simp
@[simp] theorem noticeOnce_pending : (noticeOnce s).pending = s.pending := by
  unfold noticeOnce; repeat' split
  all_goals simp
@[simp] theorem noticeOnce_node (m_ : Nat) : (noticeOnce s).node m_ = s.node m_ := by
  simp only [State.node, noticeOnce_roster]
@[simp] theorem noticeOnce_extent (x_ : Nat) : (noticeOnce s).extent x_ = s.extent x_ := by
  simp only [State.extent, noticeOnce_map]
@[simp] theorem noticeOnce_pair (x_ : Nat) : (noticeOnce s).pair x_ = s.pair x_ := by
  simp only [State.pair, noticeOnce_map]
@[simp] theorem noticeOnce_loan (m_ : Nat) : (noticeOnce s).loan m_ = s.loan m_ := by
  simp only [State.loan, noticeOnce_loans]
@[simp] theorem noticeOnce_xl (x_ : Nat) : (noticeOnce s).xl x_ = s.xl x_ := by
  simp only [State.xl, noticeOnce_loans]
@[simp] theorem noticeOnce_summary (x_ : Nat) : (noticeOnce s).summary x_ = s.summary x_ := by
  simp only [State.summary, State.loansOn, noticeOnce_loans]
@[simp] theorem noticeOnce_bay (m_ : Nat) : (noticeOnce s).bay m_ = s.bay m_ := by
  simp only [State.bay, noticeOnce_bays]

end noticeOnce_keeps

section noticeTest_keeps
variable (s : State)

@[simp] theorem noticeTest_roster : (noticeTest s).roster = s.roster := by
  exact repeat_keeps (fun u => u.roster) noticeOnce_roster 16 s
@[simp] theorem noticeTest_map : (noticeTest s).map = s.map := by
  exact repeat_keeps (fun u => u.map) noticeOnce_map 16 s
@[simp] theorem noticeTest_loans : (noticeTest s).loans = s.loans := by
  exact repeat_keeps (fun u => u.loans) noticeOnce_loans 16 s
@[simp] theorem noticeTest_clock : (noticeTest s).clock = s.clock := by
  exact repeat_keeps (fun u => u.clock) noticeOnce_clock 16 s
@[simp] theorem noticeTest_bays : (noticeTest s).bays = s.bays := by
  exact repeat_keeps (fun u => u.bays) noticeOnce_bays 16 s
@[simp] theorem noticeTest_watches : (noticeTest s).watches = s.watches := by
  exact repeat_keeps (fun u => u.watches) noticeOnce_watches 16 s
@[simp] theorem noticeTest_fences : (noticeTest s).fences = s.fences := by
  exact repeat_keeps (fun u => u.fences) noticeOnce_fences 16 s
@[simp] theorem noticeTest_loader : (noticeTest s).loader = s.loader := by
  exact repeat_keeps (fun u => u.loader) noticeOnce_loader 16 s
@[simp] theorem noticeTest_choices : (noticeTest s).choices = s.choices := by
  exact repeat_keeps (fun u => u.choices) noticeOnce_choices 16 s
@[simp] theorem noticeTest_pending : (noticeTest s).pending = s.pending := by
  exact repeat_keeps (fun u => u.pending) noticeOnce_pending 16 s
@[simp] theorem noticeTest_node (m_ : Nat) : (noticeTest s).node m_ = s.node m_ := by
  simp only [State.node, noticeTest_roster]
@[simp] theorem noticeTest_extent (x_ : Nat) : (noticeTest s).extent x_ = s.extent x_ := by
  simp only [State.extent, noticeTest_map]
@[simp] theorem noticeTest_pair (x_ : Nat) : (noticeTest s).pair x_ = s.pair x_ := by
  simp only [State.pair, noticeTest_map]
@[simp] theorem noticeTest_loan (m_ : Nat) : (noticeTest s).loan m_ = s.loan m_ := by
  simp only [State.loan, noticeTest_loans]
@[simp] theorem noticeTest_xl (x_ : Nat) : (noticeTest s).xl x_ = s.xl x_ := by
  simp only [State.xl, noticeTest_loans]
@[simp] theorem noticeTest_summary (x_ : Nat) : (noticeTest s).summary x_ = s.summary x_ := by
  simp only [State.summary, State.loansOn, noticeTest_loans]
@[simp] theorem noticeTest_bay (m_ : Nat) : (noticeTest s).bay m_ = s.bay m_ := by
  simp only [State.bay, noticeTest_bays]

end noticeTest_keeps

section raise_keeps
variable (s : State) (k : EventKind) (d : Detail)

@[simp] theorem raise_roster : (raise k d s).roster = s.roster := by
  unfold raise; split
  · rfl
  · dsimp only; split <;> simp
@[simp] theorem raise_map : (raise k d s).map = s.map := by
  unfold raise; split
  · rfl
  · dsimp only; split <;> simp
@[simp] theorem raise_loans : (raise k d s).loans = s.loans := by
  unfold raise; split
  · rfl
  · dsimp only; split <;> simp
@[simp] theorem raise_clock : (raise k d s).clock = s.clock := by
  unfold raise; split
  · rfl
  · dsimp only; split <;> simp
@[simp] theorem raise_bays : (raise k d s).bays = s.bays := by
  unfold raise; split
  · rfl
  · dsimp only; split <;> simp
@[simp] theorem raise_watches : (raise k d s).watches = s.watches := by
  unfold raise; split
  · rfl
  · dsimp only; split <;> simp
@[simp] theorem raise_fences : (raise k d s).fences = s.fences := by
  unfold raise; split
  · rfl
  · dsimp only; split <;> simp
@[simp] theorem raise_loader : (raise k d s).loader = s.loader := by
  unfold raise; split
  · rfl
  · dsimp only; split <;> simp
@[simp] theorem raise_choices : (raise k d s).choices = s.choices := by
  unfold raise; split
  · rfl
  · dsimp only; split <;> simp
@[simp] theorem raise_pending : (raise k d s).pending = s.pending := by
  unfold raise; split
  · rfl
  · dsimp only; split <;> simp
@[simp] theorem raise_node (m_ : Nat) : (raise k d s).node m_ = s.node m_ := by
  simp only [State.node, raise_roster]
@[simp] theorem raise_extent (x_ : Nat) : (raise k d s).extent x_ = s.extent x_ := by
  simp only [State.extent, raise_map]
@[simp] theorem raise_pair (x_ : Nat) : (raise k d s).pair x_ = s.pair x_ := by
  simp only [State.pair, raise_map]
@[simp] theorem raise_loan (m_ : Nat) : (raise k d s).loan m_ = s.loan m_ := by
  simp only [State.loan, raise_loans]
@[simp] theorem raise_xl (x_ : Nat) : (raise k d s).xl x_ = s.xl x_ := by
  simp only [State.xl, raise_loans]
@[simp] theorem raise_summary (x_ : Nat) : (raise k d s).summary x_ = s.summary x_ := by
  simp only [State.summary, State.loansOn, raise_loans]
@[simp] theorem raise_bay (m_ : Nat) : (raise k d s).bay m_ = s.bay m_ := by
  simp only [State.bay, raise_bays]

end raise_keeps

section placeFree_keeps
variable (s : State) (p : PortId)

@[simp] theorem placeFree_roster : (placeFree p s).roster = s.roster := by
  unfold placeFree onlyIf; repeat' split
  all_goals simp
@[simp] theorem placeFree_map : (placeFree p s).map = s.map := by
  unfold placeFree onlyIf; repeat' split
  all_goals simp
@[simp] theorem placeFree_loans : (placeFree p s).loans = s.loans := by
  unfold placeFree onlyIf; repeat' split
  all_goals simp
@[simp] theorem placeFree_clock : (placeFree p s).clock = s.clock := by
  unfold placeFree onlyIf; repeat' split
  all_goals simp
@[simp] theorem placeFree_bays : (placeFree p s).bays = s.bays := by
  unfold placeFree onlyIf; repeat' split
  all_goals simp
@[simp] theorem placeFree_watches : (placeFree p s).watches = s.watches := by
  unfold placeFree onlyIf; repeat' split
  all_goals simp
@[simp] theorem placeFree_fences : (placeFree p s).fences = s.fences := by
  unfold placeFree onlyIf; repeat' split
  all_goals simp
@[simp] theorem placeFree_loader : (placeFree p s).loader = s.loader := by
  unfold placeFree onlyIf; repeat' split
  all_goals simp
@[simp] theorem placeFree_choices : (placeFree p s).choices = s.choices := by
  unfold placeFree onlyIf; repeat' split
  all_goals simp
@[simp] theorem placeFree_pending : (placeFree p s).pending = s.pending := by
  unfold placeFree onlyIf; repeat' split
  all_goals simp
@[simp] theorem placeFree_node (m_ : Nat) : (placeFree p s).node m_ = s.node m_ := by
  simp only [State.node, placeFree_roster]
@[simp] theorem placeFree_extent (x_ : Nat) : (placeFree p s).extent x_ = s.extent x_ := by
  simp only [State.extent, placeFree_map]
@[simp] theorem placeFree_pair (x_ : Nat) : (placeFree p s).pair x_ = s.pair x_ := by
  simp only [State.pair, placeFree_map]
@[simp] theorem placeFree_loan (m_ : Nat) : (placeFree p s).loan m_ = s.loan m_ := by
  simp only [State.loan, placeFree_loans]
@[simp] theorem placeFree_xl (x_ : Nat) : (placeFree p s).xl x_ = s.xl x_ := by
  simp only [State.xl, placeFree_loans]
@[simp] theorem placeFree_summary (x_ : Nat) : (placeFree p s).summary x_ = s.summary x_ := by
  simp only [State.summary, State.loansOn, placeFree_loans]
@[simp] theorem placeFree_bay (m_ : Nat) : (placeFree p s).bay m_ = s.bay m_ := by
  simp only [State.bay, placeFree_bays]

end placeFree_keeps

section admitReq_keeps
variable (s : State) (q : Req)

@[simp] theorem admitReq_map : (admitReq q s).map = s.map := by
  unfold admitReq onlyIf; split <;> simp
@[simp] theorem admitReq_loans : (admitReq q s).loans = s.loans := by
  unfold admitReq onlyIf; split <;> simp
@[simp] theorem admitReq_clock : (admitReq q s).clock = s.clock := by
  unfold admitReq onlyIf; split <;> simp
@[simp] theorem admitReq_bays : (admitReq q s).bays = s.bays := by
  unfold admitReq onlyIf; split <;> simp
@[simp] theorem admitReq_watches : (admitReq q s).watches = s.watches := by
  unfold admitReq onlyIf; split <;> simp
@[simp] theorem admitReq_fences : (admitReq q s).fences = s.fences := by
  unfold admitReq onlyIf; split <;> simp
@[simp] theorem admitReq_loader : (admitReq q s).loader = s.loader := by
  unfold admitReq onlyIf; split <;> simp
@[simp] theorem admitReq_choices : (admitReq q s).choices = s.choices := by
  unfold admitReq onlyIf; split <;> simp
@[simp] theorem admitReq_pending : (admitReq q s).pending = s.pending := by
  unfold admitReq onlyIf; split <;> simp
@[simp] theorem admitReq_extent (x_ : Nat) : (admitReq q s).extent x_ = s.extent x_ := by
  simp only [State.extent, admitReq_map]
@[simp] theorem admitReq_pair (x_ : Nat) : (admitReq q s).pair x_ = s.pair x_ := by
  simp only [State.pair, admitReq_map]
@[simp] theorem admitReq_loan (m_ : Nat) : (admitReq q s).loan m_ = s.loan m_ := by
  simp only [State.loan, admitReq_loans]
@[simp] theorem admitReq_xl (x_ : Nat) : (admitReq q s).xl x_ = s.xl x_ := by
  simp only [State.xl, admitReq_loans]
@[simp] theorem admitReq_summary (x_ : Nat) : (admitReq q s).summary x_ = s.summary x_ := by
  simp only [State.summary, State.loansOn, admitReq_loans]
@[simp] theorem admitReq_bay (m_ : Nat) : (admitReq q s).bay m_ = s.bay m_ := by
  simp only [State.bay, admitReq_bays]

end admitReq_keeps

section notify_keeps
variable (s : State) (n : Nat) (o : OutFrame)

@[simp] theorem notify_roster : (notify n o s).roster = s.roster := by
  unfold notify; repeat' split
  all_goals simp
@[simp] theorem notify_map : (notify n o s).map = s.map := by
  unfold notify; repeat' split
  all_goals simp
@[simp] theorem notify_loans : (notify n o s).loans = s.loans := by
  unfold notify; repeat' split
  all_goals simp
@[simp] theorem notify_clock : (notify n o s).clock = s.clock := by
  unfold notify; repeat' split
  all_goals simp
@[simp] theorem notify_bays : (notify n o s).bays = s.bays := by
  unfold notify; repeat' split
  all_goals simp
@[simp] theorem notify_watches : (notify n o s).watches = s.watches := by
  unfold notify; repeat' split
  all_goals simp
@[simp] theorem notify_fences : (notify n o s).fences = s.fences := by
  unfold notify; repeat' split
  all_goals simp
@[simp] theorem notify_loader : (notify n o s).loader = s.loader := by
  unfold notify; repeat' split
  all_goals simp
@[simp] theorem notify_choices : (notify n o s).choices = s.choices := by
  unfold notify; repeat' split
  all_goals simp
@[simp] theorem notify_pending : (notify n o s).pending = s.pending := by
  unfold notify; repeat' split
  all_goals simp
@[simp] theorem notify_node (m_ : Nat) : (notify n o s).node m_ = s.node m_ := by
  simp only [State.node, notify_roster]
@[simp] theorem notify_extent (x_ : Nat) : (notify n o s).extent x_ = s.extent x_ := by
  simp only [State.extent, notify_map]
@[simp] theorem notify_pair (x_ : Nat) : (notify n o s).pair x_ = s.pair x_ := by
  simp only [State.pair, notify_map]
@[simp] theorem notify_loan (m_ : Nat) : (notify n o s).loan m_ = s.loan m_ := by
  simp only [State.loan, notify_loans]
@[simp] theorem notify_xl (x_ : Nat) : (notify n o s).xl x_ = s.xl x_ := by
  simp only [State.xl, notify_loans]
@[simp] theorem notify_summary (x_ : Nat) : (notify n o s).summary x_ = s.summary x_ := by
  simp only [State.summary, State.loansOn, notify_loans]
@[simp] theorem notify_bay (m_ : Nat) : (notify n o s).bay m_ = s.bay m_ := by
  simp only [State.bay, notify_bays]

end notify_keeps

section fireWatches_keeps
variable (s : State) (e : Nat) (v : Pair) (why : ChangeReason)

@[simp] theorem fireWatches_roster : (fireWatches e v why s).roster = s.roster := by
  unfold fireWatches
  exact (forEachFree_keeps (fun u => u.roster) (fun _ _ => rfl) (fun _ _ => by simp) _)
@[simp] theorem fireWatches_map : (fireWatches e v why s).map = s.map := by
  unfold fireWatches
  exact (forEachFree_keeps (fun u => u.map) (fun _ _ => rfl) (fun _ _ => by simp) _)
@[simp] theorem fireWatches_loans : (fireWatches e v why s).loans = s.loans := by
  unfold fireWatches
  exact (forEachFree_keeps (fun u => u.loans) (fun _ _ => rfl) (fun _ _ => by simp) _)
@[simp] theorem fireWatches_clock : (fireWatches e v why s).clock = s.clock := by
  unfold fireWatches
  exact (forEachFree_keeps (fun u => u.clock) (fun _ _ => rfl) (fun _ _ => by simp) _)
@[simp] theorem fireWatches_bays : (fireWatches e v why s).bays = s.bays := by
  unfold fireWatches
  exact (forEachFree_keeps (fun u => u.bays) (fun _ _ => rfl) (fun _ _ => by simp) _)
@[simp] theorem fireWatches_fences : (fireWatches e v why s).fences = s.fences := by
  unfold fireWatches
  exact (forEachFree_keeps (fun u => u.fences) (fun _ _ => rfl) (fun _ _ => by simp) _)
@[simp] theorem fireWatches_loader : (fireWatches e v why s).loader = s.loader := by
  unfold fireWatches
  exact (forEachFree_keeps (fun u => u.loader) (fun _ _ => rfl) (fun _ _ => by simp) _)
@[simp] theorem fireWatches_pending : (fireWatches e v why s).pending = s.pending := by
  unfold fireWatches
  exact (forEachFree_keeps (fun u => u.pending) (fun _ _ => rfl) (fun _ _ => by simp) _)
@[simp] theorem fireWatches_node (m_ : Nat) : (fireWatches e v why s).node m_ = s.node m_ := by
  simp only [State.node, fireWatches_roster]
@[simp] theorem fireWatches_extent (x_ : Nat) : (fireWatches e v why s).extent x_ = s.extent x_ := by
  simp only [State.extent, fireWatches_map]
@[simp] theorem fireWatches_pair (x_ : Nat) : (fireWatches e v why s).pair x_ = s.pair x_ := by
  simp only [State.pair, fireWatches_map]
@[simp] theorem fireWatches_loan (m_ : Nat) : (fireWatches e v why s).loan m_ = s.loan m_ := by
  simp only [State.loan, fireWatches_loans]
@[simp] theorem fireWatches_xl (x_ : Nat) : (fireWatches e v why s).xl x_ = s.xl x_ := by
  simp only [State.xl, fireWatches_loans]
@[simp] theorem fireWatches_summary (x_ : Nat) : (fireWatches e v why s).summary x_ = s.summary x_ := by
  simp only [State.summary, State.loansOn, fireWatches_loans]
@[simp] theorem fireWatches_bay (m_ : Nat) : (fireWatches e v why s).bay m_ = s.bay m_ := by
  simp only [State.bay, fireWatches_bays]

end fireWatches_keeps

section dropWatches_keeps
variable (s : State) (e : Nat)

@[simp] theorem dropWatches_roster : (dropWatches e s).roster = s.roster := by
  unfold dropWatches
  exact (forEachFree_keeps (fun u => u.roster) (fun _ _ => rfl) (fun _ _ => by simp) _)
@[simp] theorem dropWatches_map : (dropWatches e s).map = s.map := by
  unfold dropWatches
  exact (forEachFree_keeps (fun u => u.map) (fun _ _ => rfl) (fun _ _ => by simp) _)
@[simp] theorem dropWatches_loans : (dropWatches e s).loans = s.loans := by
  unfold dropWatches
  exact (forEachFree_keeps (fun u => u.loans) (fun _ _ => rfl) (fun _ _ => by simp) _)
@[simp] theorem dropWatches_clock : (dropWatches e s).clock = s.clock := by
  unfold dropWatches
  exact (forEachFree_keeps (fun u => u.clock) (fun _ _ => rfl) (fun _ _ => by simp) _)
@[simp] theorem dropWatches_bays : (dropWatches e s).bays = s.bays := by
  unfold dropWatches
  exact (forEachFree_keeps (fun u => u.bays) (fun _ _ => rfl) (fun _ _ => by simp) _)
@[simp] theorem dropWatches_fences : (dropWatches e s).fences = s.fences := by
  unfold dropWatches
  exact (forEachFree_keeps (fun u => u.fences) (fun _ _ => rfl) (fun _ _ => by simp) _)
@[simp] theorem dropWatches_loader : (dropWatches e s).loader = s.loader := by
  unfold dropWatches
  exact (forEachFree_keeps (fun u => u.loader) (fun _ _ => rfl) (fun _ _ => by simp) _)
@[simp] theorem dropWatches_pending : (dropWatches e s).pending = s.pending := by
  unfold dropWatches
  exact (forEachFree_keeps (fun u => u.pending) (fun _ _ => rfl) (fun _ _ => by simp) _)
@[simp] theorem dropWatches_node (m_ : Nat) : (dropWatches e s).node m_ = s.node m_ := by
  simp only [State.node, dropWatches_roster]
@[simp] theorem dropWatches_extent (x_ : Nat) : (dropWatches e s).extent x_ = s.extent x_ := by
  simp only [State.extent, dropWatches_map]
@[simp] theorem dropWatches_pair (x_ : Nat) : (dropWatches e s).pair x_ = s.pair x_ := by
  simp only [State.pair, dropWatches_map]
@[simp] theorem dropWatches_loan (m_ : Nat) : (dropWatches e s).loan m_ = s.loan m_ := by
  simp only [State.loan, dropWatches_loans]
@[simp] theorem dropWatches_xl (x_ : Nat) : (dropWatches e s).xl x_ = s.xl x_ := by
  simp only [State.xl, dropWatches_loans]
@[simp] theorem dropWatches_summary (x_ : Nat) : (dropWatches e s).summary x_ = s.summary x_ := by
  simp only [State.summary, State.loansOn, dropWatches_loans]
@[simp] theorem dropWatches_bay (m_ : Nat) : (dropWatches e s).bay m_ = s.bay m_ := by
  simp only [State.bay, dropWatches_bays]

end dropWatches_keeps

section loanUpdate_keeps
variable (s : State) (e : Nat) (c d : Bool)

@[simp] theorem loanUpdate_roster : (loanUpdate e c d s).roster = s.roster := by
  unfold loanUpdate onlyIf; dsimp only; split <;> split <;> simp
@[simp] theorem loanUpdate_loans : (loanUpdate e c d s).loans = s.loans := by
  unfold loanUpdate onlyIf; dsimp only; split <;> split <;> simp
@[simp] theorem loanUpdate_clock : (loanUpdate e c d s).clock = s.clock := by
  unfold loanUpdate onlyIf; dsimp only; split <;> split <;> simp
@[simp] theorem loanUpdate_bays : (loanUpdate e c d s).bays = s.bays := by
  unfold loanUpdate onlyIf; dsimp only; split <;> split <;> simp
@[simp] theorem loanUpdate_fences : (loanUpdate e c d s).fences = s.fences := by
  unfold loanUpdate onlyIf; dsimp only; split <;> split <;> simp
@[simp] theorem loanUpdate_loader : (loanUpdate e c d s).loader = s.loader := by
  unfold loanUpdate onlyIf; dsimp only; split <;> split <;> simp
@[simp] theorem loanUpdate_pending : (loanUpdate e c d s).pending = s.pending := by
  unfold loanUpdate onlyIf; dsimp only; split <;> split <;> simp
@[simp] theorem loanUpdate_node (m_ : Nat) : (loanUpdate e c d s).node m_ = s.node m_ := by
  simp only [State.node, loanUpdate_roster]
@[simp] theorem loanUpdate_loan (m_ : Nat) : (loanUpdate e c d s).loan m_ = s.loan m_ := by
  simp only [State.loan, loanUpdate_loans]
@[simp] theorem loanUpdate_xl (x_ : Nat) : (loanUpdate e c d s).xl x_ = s.xl x_ := by
  simp only [State.xl, loanUpdate_loans]
@[simp] theorem loanUpdate_summary (x_ : Nat) : (loanUpdate e c d s).summary x_ = s.summary x_ := by
  simp only [State.summary, State.loansOn, loanUpdate_loans]
@[simp] theorem loanUpdate_bay (m_ : Nat) : (loanUpdate e c d s).bay m_ = s.bay m_ := by
  simp only [State.bay, loanUpdate_bays]

end loanUpdate_keeps

section serviceUpdate_keeps
variable (s : State) (e : Nat)

@[simp] theorem serviceUpdate_roster : (serviceUpdate e s).roster = s.roster := by
  simp [serviceUpdate]
@[simp] theorem serviceUpdate_loans : (serviceUpdate e s).loans = s.loans := by
  simp [serviceUpdate]
@[simp] theorem serviceUpdate_clock : (serviceUpdate e s).clock = s.clock := by
  simp [serviceUpdate]
@[simp] theorem serviceUpdate_bays : (serviceUpdate e s).bays = s.bays := by
  simp [serviceUpdate]
@[simp] theorem serviceUpdate_fences : (serviceUpdate e s).fences = s.fences := by
  simp [serviceUpdate]
@[simp] theorem serviceUpdate_loader : (serviceUpdate e s).loader = s.loader := by
  simp [serviceUpdate]
@[simp] theorem serviceUpdate_pending : (serviceUpdate e s).pending = s.pending := by
  simp [serviceUpdate]
@[simp] theorem serviceUpdate_node (m_ : Nat) : (serviceUpdate e s).node m_ = s.node m_ := by
  simp only [State.node, serviceUpdate_roster]
@[simp] theorem serviceUpdate_loan (m_ : Nat) : (serviceUpdate e s).loan m_ = s.loan m_ := by
  simp only [State.loan, serviceUpdate_loans]
@[simp] theorem serviceUpdate_xl (x_ : Nat) : (serviceUpdate e s).xl x_ = s.xl x_ := by
  simp only [State.xl, serviceUpdate_loans]
@[simp] theorem serviceUpdate_summary (x_ : Nat) : (serviceUpdate e s).summary x_ = s.summary x_ := by
  simp only [State.summary, State.loansOn, serviceUpdate_loans]
@[simp] theorem serviceUpdate_bay (m_ : Nat) : (serviceUpdate e s).bay m_ = s.bay m_ := by
  simp only [State.bay, serviceUpdate_bays]

end serviceUpdate_keeps

section mapUpdate_keeps
variable (s : State) (e : Nat)

@[simp] theorem mapUpdate_roster : (mapUpdate e s).roster = s.roster := by
  simp [mapUpdate]
@[simp] theorem mapUpdate_loans : (mapUpdate e s).loans = s.loans := by
  simp [mapUpdate]
@[simp] theorem mapUpdate_clock : (mapUpdate e s).clock = s.clock := by
  simp [mapUpdate]
@[simp] theorem mapUpdate_bays : (mapUpdate e s).bays = s.bays := by
  simp [mapUpdate]
@[simp] theorem mapUpdate_fences : (mapUpdate e s).fences = s.fences := by
  simp [mapUpdate]
@[simp] theorem mapUpdate_loader : (mapUpdate e s).loader = s.loader := by
  simp [mapUpdate]
@[simp] theorem mapUpdate_pending : (mapUpdate e s).pending = s.pending := by
  simp [mapUpdate]
@[simp] theorem mapUpdate_node (m_ : Nat) : (mapUpdate e s).node m_ = s.node m_ := by
  simp only [State.node, mapUpdate_roster]
@[simp] theorem mapUpdate_loan (m_ : Nat) : (mapUpdate e s).loan m_ = s.loan m_ := by
  simp only [State.loan, mapUpdate_loans]
@[simp] theorem mapUpdate_xl (x_ : Nat) : (mapUpdate e s).xl x_ = s.xl x_ := by
  simp only [State.xl, mapUpdate_loans]
@[simp] theorem mapUpdate_summary (x_ : Nat) : (mapUpdate e s).summary x_ = s.summary x_ := by
  simp only [State.summary, State.loansOn, mapUpdate_loans]
@[simp] theorem mapUpdate_bay (m_ : Nat) : (mapUpdate e s).bay m_ = s.bay m_ := by
  simp only [State.bay, mapUpdate_bays]

end mapUpdate_keeps

section clearLocalEnables_keeps
variable (s : State)

@[simp] theorem clearLocalEnables_ports : (clearLocalEnables s).ports = s.ports := by
  simp [clearLocalEnables]
@[simp] theorem clearLocalEnables_roster : (clearLocalEnables s).roster = s.roster := by
  simp [clearLocalEnables]
@[simp] theorem clearLocalEnables_map : (clearLocalEnables s).map = s.map := by
  simp [clearLocalEnables]
@[simp] theorem clearLocalEnables_loans : (clearLocalEnables s).loans = s.loans := by
  simp [clearLocalEnables]
@[simp] theorem clearLocalEnables_clock : (clearLocalEnables s).clock = s.clock := by
  simp [clearLocalEnables]
@[simp] theorem clearLocalEnables_bays : (clearLocalEnables s).bays = s.bays := by
  simp [clearLocalEnables]
@[simp] theorem clearLocalEnables_watches : (clearLocalEnables s).watches = s.watches := by
  simp [clearLocalEnables]
@[simp] theorem clearLocalEnables_loader : (clearLocalEnables s).loader = s.loader := by
  simp [clearLocalEnables]
@[simp] theorem clearLocalEnables_events : (clearLocalEnables s).events = s.events := by
  simp [clearLocalEnables]
@[simp] theorem clearLocalEnables_choices : (clearLocalEnables s).choices = s.choices := by
  simp [clearLocalEnables]
@[simp] theorem clearLocalEnables_pending : (clearLocalEnables s).pending = s.pending := by
  simp [clearLocalEnables]
@[simp] theorem clearLocalEnables_port (q_ : PortId) : (clearLocalEnables s).port q_ = s.port q_ := by
  simp only [State.port, clearLocalEnables_ports]
@[simp] theorem clearLocalEnables_node (m_ : Nat) : (clearLocalEnables s).node m_ = s.node m_ := by
  simp only [State.node, clearLocalEnables_roster]
@[simp] theorem clearLocalEnables_extent (x_ : Nat) : (clearLocalEnables s).extent x_ = s.extent x_ := by
  simp only [State.extent, clearLocalEnables_map]
@[simp] theorem clearLocalEnables_pair (x_ : Nat) : (clearLocalEnables s).pair x_ = s.pair x_ := by
  simp only [State.pair, clearLocalEnables_map]
@[simp] theorem clearLocalEnables_loan (m_ : Nat) : (clearLocalEnables s).loan m_ = s.loan m_ := by
  simp only [State.loan, clearLocalEnables_loans]
@[simp] theorem clearLocalEnables_xl (x_ : Nat) : (clearLocalEnables s).xl x_ = s.xl x_ := by
  simp only [State.xl, clearLocalEnables_loans]
@[simp] theorem clearLocalEnables_summary (x_ : Nat) : (clearLocalEnables s).summary x_ = s.summary x_ := by
  simp only [State.summary, State.loansOn, clearLocalEnables_loans]
@[simp] theorem clearLocalEnables_bay (m_ : Nat) : (clearLocalEnables s).bay m_ = s.bay m_ := by
  simp only [State.bay, clearLocalEnables_bays]
@[simp] theorem clearLocalEnables_event (m_ : Nat) : (clearLocalEnables s).event m_ = s.event m_ := by
  simp only [State.event, clearLocalEnables_events]

end clearLocalEnables_keeps

section clearDrainMark_keeps
variable (s : State) (e : Nat)

@[simp] theorem clearDrainMark_ports : (clearDrainMark e s).ports = s.ports := by
  simp [clearDrainMark]
@[simp] theorem clearDrainMark_roster : (clearDrainMark e s).roster = s.roster := by
  simp [clearDrainMark]
@[simp] theorem clearDrainMark_map : (clearDrainMark e s).map = s.map := by
  simp [clearDrainMark]
@[simp] theorem clearDrainMark_clock : (clearDrainMark e s).clock = s.clock := by
  simp [clearDrainMark]
@[simp] theorem clearDrainMark_bays : (clearDrainMark e s).bays = s.bays := by
  simp [clearDrainMark]
@[simp] theorem clearDrainMark_watches : (clearDrainMark e s).watches = s.watches := by
  simp [clearDrainMark]
@[simp] theorem clearDrainMark_fences : (clearDrainMark e s).fences = s.fences := by
  simp [clearDrainMark]
@[simp] theorem clearDrainMark_loader : (clearDrainMark e s).loader = s.loader := by
  simp [clearDrainMark]
@[simp] theorem clearDrainMark_events : (clearDrainMark e s).events = s.events := by
  simp [clearDrainMark]
@[simp] theorem clearDrainMark_choices : (clearDrainMark e s).choices = s.choices := by
  simp [clearDrainMark]
@[simp] theorem clearDrainMark_pending : (clearDrainMark e s).pending = s.pending := by
  simp [clearDrainMark]
@[simp] theorem clearDrainMark_port (q_ : PortId) : (clearDrainMark e s).port q_ = s.port q_ := by
  simp only [State.port, clearDrainMark_ports]
@[simp] theorem clearDrainMark_node (m_ : Nat) : (clearDrainMark e s).node m_ = s.node m_ := by
  simp only [State.node, clearDrainMark_roster]
@[simp] theorem clearDrainMark_extent (x_ : Nat) : (clearDrainMark e s).extent x_ = s.extent x_ := by
  simp only [State.extent, clearDrainMark_map]
@[simp] theorem clearDrainMark_pair (x_ : Nat) : (clearDrainMark e s).pair x_ = s.pair x_ := by
  simp only [State.pair, clearDrainMark_map]
@[simp] theorem clearDrainMark_bay (m_ : Nat) : (clearDrainMark e s).bay m_ = s.bay m_ := by
  simp only [State.bay, clearDrainMark_bays]
@[simp] theorem clearDrainMark_event (m_ : Nat) : (clearDrainMark e s).event m_ = s.event m_ := by
  simp only [State.event, clearDrainMark_events]

end clearDrainMark_keeps

section setDrainMark_keeps
variable (s : State) (e : Nat)

@[simp] theorem setDrainMark_ports : (setDrainMark e s).ports = s.ports := by
  simp [setDrainMark]
@[simp] theorem setDrainMark_roster : (setDrainMark e s).roster = s.roster := by
  simp [setDrainMark]
@[simp] theorem setDrainMark_map : (setDrainMark e s).map = s.map := by
  simp [setDrainMark]
@[simp] theorem setDrainMark_clock : (setDrainMark e s).clock = s.clock := by
  simp [setDrainMark]
@[simp] theorem setDrainMark_bays : (setDrainMark e s).bays = s.bays := by
  simp [setDrainMark]
@[simp] theorem setDrainMark_watches : (setDrainMark e s).watches = s.watches := by
  simp [setDrainMark]
@[simp] theorem setDrainMark_fences : (setDrainMark e s).fences = s.fences := by
  simp [setDrainMark]
@[simp] theorem setDrainMark_loader : (setDrainMark e s).loader = s.loader := by
  simp [setDrainMark]
@[simp] theorem setDrainMark_events : (setDrainMark e s).events = s.events := by
  simp [setDrainMark]
@[simp] theorem setDrainMark_choices : (setDrainMark e s).choices = s.choices := by
  simp [setDrainMark]
@[simp] theorem setDrainMark_pending : (setDrainMark e s).pending = s.pending := by
  simp [setDrainMark]
@[simp] theorem setDrainMark_port (q_ : PortId) : (setDrainMark e s).port q_ = s.port q_ := by
  simp only [State.port, setDrainMark_ports]
@[simp] theorem setDrainMark_node (m_ : Nat) : (setDrainMark e s).node m_ = s.node m_ := by
  simp only [State.node, setDrainMark_roster]
@[simp] theorem setDrainMark_extent (x_ : Nat) : (setDrainMark e s).extent x_ = s.extent x_ := by
  simp only [State.extent, setDrainMark_map]
@[simp] theorem setDrainMark_pair (x_ : Nat) : (setDrainMark e s).pair x_ = s.pair x_ := by
  simp only [State.pair, setDrainMark_map]
@[simp] theorem setDrainMark_bay (m_ : Nat) : (setDrainMark e s).bay m_ = s.bay m_ := by
  simp only [State.bay, setDrainMark_bays]
@[simp] theorem setDrainMark_event (m_ : Nat) : (setDrainMark e s).event m_ = s.event m_ := by
  simp only [State.event, setDrainMark_events]

end setDrainMark_keeps

section doSwap_keeps
variable (s : State)

@[simp] theorem doSwap_clock : (doSwap s).clock = s.clock := by
  unfold doSwap
  simp
  rw [forEach_keeps (fun u => u.clock) (fun _ _ => by simp)]
  simp
  rw [forEachFree_keeps (fun u => u.clock) (fun _ _ => rfl) (fun _ _ => by simp)]
  simp
@[simp] theorem doSwap_bays : (doSwap s).bays = s.bays := by
  unfold doSwap
  simp
  rw [forEach_keeps (fun u => u.bays) (fun _ _ => by simp)]
  simp
  rw [forEachFree_keeps (fun u => u.bays) (fun _ _ => rfl) (fun _ _ => by simp)]
  simp
@[simp] theorem doSwap_pending : (doSwap s).pending = s.pending := by
  unfold doSwap
  simp
  rw [forEach_keeps (fun u => u.pending) (fun _ _ => by simp)]
  simp
  rw [forEachFree_keeps (fun u => u.pending) (fun _ _ => rfl) (fun _ _ => by simp)]
  simp
@[simp] theorem doSwap_bay (m_ : Nat) : (doSwap s).bay m_ = s.bay m_ := by
  simp only [State.bay, doSwap_bays]

end doSwap_keeps

section drainTest_keeps
variable (s : State)

@[simp] theorem drainTest_clock : (drainTest s).clock = s.clock := by
  unfold drainTest; split <;> simp
@[simp] theorem drainTest_bays : (drainTest s).bays = s.bays := by
  unfold drainTest; split <;> simp
@[simp] theorem drainTest_pending : (drainTest s).pending = s.pending := by
  unfold drainTest; split <;> simp
@[simp] theorem drainTest_bay (m_ : Nat) : (drainTest s).bay m_ = s.bay m_ := by
  simp only [State.bay, drainTest_bays]

end drainTest_keeps

section entryTest_keeps
variable (s : State) (b : Nat)

@[simp] theorem entryTest_map : (entryTest b s).map = s.map := by
  unfold entryTest; split <;> simp
@[simp] theorem entryTest_loans : (entryTest b s).loans = s.loans := by
  unfold entryTest; split <;> simp
@[simp] theorem entryTest_clock : (entryTest b s).clock = s.clock := by
  unfold entryTest; split <;> simp
@[simp] theorem entryTest_watches : (entryTest b s).watches = s.watches := by
  unfold entryTest; split <;> simp
@[simp] theorem entryTest_fences : (entryTest b s).fences = s.fences := by
  unfold entryTest; split <;> simp
@[simp] theorem entryTest_loader : (entryTest b s).loader = s.loader := by
  unfold entryTest; split <;> simp
@[simp] theorem entryTest_events : (entryTest b s).events = s.events := by
  unfold entryTest; split <;> simp
@[simp] theorem entryTest_choices : (entryTest b s).choices = s.choices := by
  unfold entryTest; split <;> simp
@[simp] theorem entryTest_pending : (entryTest b s).pending = s.pending := by
  unfold entryTest; split <;> simp
@[simp] theorem entryTest_extent (x_ : Nat) : (entryTest b s).extent x_ = s.extent x_ := by
  simp only [State.extent, entryTest_map]
@[simp] theorem entryTest_pair (x_ : Nat) : (entryTest b s).pair x_ = s.pair x_ := by
  simp only [State.pair, entryTest_map]
@[simp] theorem entryTest_loan (m_ : Nat) : (entryTest b s).loan m_ = s.loan m_ := by
  simp only [State.loan, entryTest_loans]
@[simp] theorem entryTest_xl (x_ : Nat) : (entryTest b s).xl x_ = s.xl x_ := by
  simp only [State.xl, entryTest_loans]
@[simp] theorem entryTest_summary (x_ : Nat) : (entryTest b s).summary x_ = s.summary x_ := by
  simp only [State.summary, State.loansOn, entryTest_loans]
@[simp] theorem entryTest_event (m_ : Nat) : (entryTest b s).event m_ = s.event m_ := by
  simp only [State.event, entryTest_events]

end entryTest_keeps

section runEndTest_keeps
variable (s : State) (x : EndTest)

@[simp] theorem runEndTest_clock : (runEndTest x s).clock = s.clock := by
  cases x <;> simp [runEndTest]
@[simp] theorem runEndTest_pending : (runEndTest x s).pending = s.pending := by
  cases x <;> simp [runEndTest]

end runEndTest_keeps

section afterEnd_keeps
variable (s : State) (t : Tests) (e : Nat)

@[simp] theorem afterEnd_clock : (afterEnd t e s).clock = s.clock := by
  unfold afterEnd
  exact forEachFree_keeps (fun u => u.clock) (fun _ _ => rfl) (fun _ _ => by simp) _
@[simp] theorem afterEnd_pending : (afterEnd t e s).pending = s.pending := by
  unfold afterEnd
  exact forEachFree_keeps (fun u => u.pending) (fun _ _ => rfl) (fun _ _ => by simp) _

end afterEnd_keeps

section tidyWait_keeps
variable (s : State) (e : Nat)

@[simp] theorem tidyWait_ports : (tidyWait e s).ports = s.ports := by
  unfold tidyWait; split <;> simp
@[simp] theorem tidyWait_roster : (tidyWait e s).roster = s.roster := by
  unfold tidyWait; split <;> simp
@[simp] theorem tidyWait_map : (tidyWait e s).map = s.map := by
  unfold tidyWait; split <;> simp
@[simp] theorem tidyWait_clock : (tidyWait e s).clock = s.clock := by
  unfold tidyWait; split <;> simp
@[simp] theorem tidyWait_bays : (tidyWait e s).bays = s.bays := by
  unfold tidyWait; split <;> simp
@[simp] theorem tidyWait_watches : (tidyWait e s).watches = s.watches := by
  unfold tidyWait; split <;> simp
@[simp] theorem tidyWait_fences : (tidyWait e s).fences = s.fences := by
  unfold tidyWait; split <;> simp
@[simp] theorem tidyWait_loader : (tidyWait e s).loader = s.loader := by
  unfold tidyWait; split <;> simp
@[simp] theorem tidyWait_events : (tidyWait e s).events = s.events := by
  unfold tidyWait; split <;> simp
@[simp] theorem tidyWait_choices : (tidyWait e s).choices = s.choices := by
  unfold tidyWait; split <;> simp
@[simp] theorem tidyWait_pending : (tidyWait e s).pending = s.pending := by
  unfold tidyWait; split <;> simp
@[simp] theorem tidyWait_port (q_ : PortId) : (tidyWait e s).port q_ = s.port q_ := by
  simp only [State.port, tidyWait_ports]
@[simp] theorem tidyWait_node (m_ : Nat) : (tidyWait e s).node m_ = s.node m_ := by
  simp only [State.node, tidyWait_roster]
@[simp] theorem tidyWait_extent (x_ : Nat) : (tidyWait e s).extent x_ = s.extent x_ := by
  simp only [State.extent, tidyWait_map]
@[simp] theorem tidyWait_pair (x_ : Nat) : (tidyWait e s).pair x_ = s.pair x_ := by
  simp only [State.pair, tidyWait_map]
@[simp] theorem tidyWait_bay (m_ : Nat) : (tidyWait e s).bay m_ = s.bay m_ := by
  simp only [State.bay, tidyWait_bays]
@[simp] theorem tidyWait_event (m_ : Nat) : (tidyWait e s).event m_ = s.event m_ := by
  simp only [State.event, tidyWait_events]

end tidyWait_keeps

section joinWait_keeps
variable (s : State) (e : Nat)

@[simp] theorem joinWait_ports : (joinWait e s).ports = s.ports := by
  unfold joinWait; split <;> simp
@[simp] theorem joinWait_roster : (joinWait e s).roster = s.roster := by
  unfold joinWait; split <;> simp
@[simp] theorem joinWait_map : (joinWait e s).map = s.map := by
  unfold joinWait; split <;> simp
@[simp] theorem joinWait_clock : (joinWait e s).clock = s.clock := by
  unfold joinWait; split <;> simp
@[simp] theorem joinWait_bays : (joinWait e s).bays = s.bays := by
  unfold joinWait; split <;> simp
@[simp] theorem joinWait_watches : (joinWait e s).watches = s.watches := by
  unfold joinWait; split <;> simp
@[simp] theorem joinWait_fences : (joinWait e s).fences = s.fences := by
  unfold joinWait; split <;> simp
@[simp] theorem joinWait_loader : (joinWait e s).loader = s.loader := by
  unfold joinWait; split <;> simp
@[simp] theorem joinWait_events : (joinWait e s).events = s.events := by
  unfold joinWait; split <;> simp
@[simp] theorem joinWait_choices : (joinWait e s).choices = s.choices := by
  unfold joinWait; split <;> simp
@[simp] theorem joinWait_pending : (joinWait e s).pending = s.pending := by
  unfold joinWait; split <;> simp
@[simp] theorem joinWait_port (q_ : PortId) : (joinWait e s).port q_ = s.port q_ := by
  simp only [State.port, joinWait_ports]
@[simp] theorem joinWait_node (m_ : Nat) : (joinWait e s).node m_ = s.node m_ := by
  simp only [State.node, joinWait_roster]
@[simp] theorem joinWait_extent (x_ : Nat) : (joinWait e s).extent x_ = s.extent x_ := by
  simp only [State.extent, joinWait_map]
@[simp] theorem joinWait_pair (x_ : Nat) : (joinWait e s).pair x_ = s.pair x_ := by
  simp only [State.pair, joinWait_map]
@[simp] theorem joinWait_bay (m_ : Nat) : (joinWait e s).bay m_ = s.bay m_ := by
  simp only [State.bay, joinWait_bays]
@[simp] theorem joinWait_event (m_ : Nat) : (joinWait e s).event m_ = s.event m_ := by
  simp only [State.event, joinWait_events]

end joinWait_keeps

section dropEntry_keeps
variable (s : State) (e : Nat) (c : ClaimEntry)

@[simp] theorem dropEntry_ports : (dropEntry e c s).ports = s.ports := by
  unfold dropEntry; split <;> simp
@[simp] theorem dropEntry_map : (dropEntry e c s).map = s.map := by
  unfold dropEntry; split <;> simp
@[simp] theorem dropEntry_clock : (dropEntry e c s).clock = s.clock := by
  unfold dropEntry; split <;> simp
@[simp] theorem dropEntry_bays : (dropEntry e c s).bays = s.bays := by
  unfold dropEntry; split <;> simp
@[simp] theorem dropEntry_watches : (dropEntry e c s).watches = s.watches := by
  unfold dropEntry; split <;> simp
@[simp] theorem dropEntry_fences : (dropEntry e c s).fences = s.fences := by
  unfold dropEntry; split <;> simp
@[simp] theorem dropEntry_loader : (dropEntry e c s).loader = s.loader := by
  unfold dropEntry; split <;> simp
@[simp] theorem dropEntry_events : (dropEntry e c s).events = s.events := by
  unfold dropEntry; split <;> simp
@[simp] theorem dropEntry_choices : (dropEntry e c s).choices = s.choices := by
  unfold dropEntry; split <;> simp
@[simp] theorem dropEntry_pending : (dropEntry e c s).pending = s.pending := by
  unfold dropEntry; split <;> simp
@[simp] theorem dropEntry_port (q_ : PortId) : (dropEntry e c s).port q_ = s.port q_ := by
  simp only [State.port, dropEntry_ports]
@[simp] theorem dropEntry_extent (x_ : Nat) : (dropEntry e c s).extent x_ = s.extent x_ := by
  simp only [State.extent, dropEntry_map]
@[simp] theorem dropEntry_pair (x_ : Nat) : (dropEntry e c s).pair x_ = s.pair x_ := by
  simp only [State.pair, dropEntry_map]
@[simp] theorem dropEntry_bay (m_ : Nat) : (dropEntry e c s).bay m_ = s.bay m_ := by
  simp only [State.bay, dropEntry_bays]
@[simp] theorem dropEntry_event (m_ : Nat) : (dropEntry e c s).event m_ = s.event m_ := by
  simp only [State.event, dropEntry_events]

end dropEntry_keeps

section refuseEntry_keeps
variable (s : State) (st : Status) (e : Nat) (c : ClaimEntry)

@[simp] theorem refuseEntry_map : (refuseEntry st e c s).map = s.map := by
  simp [refuseEntry]
@[simp] theorem refuseEntry_clock : (refuseEntry st e c s).clock = s.clock := by
  simp [refuseEntry]
@[simp] theorem refuseEntry_bays : (refuseEntry st e c s).bays = s.bays := by
  simp [refuseEntry]
@[simp] theorem refuseEntry_watches : (refuseEntry st e c s).watches = s.watches := by
  simp [refuseEntry]
@[simp] theorem refuseEntry_fences : (refuseEntry st e c s).fences = s.fences := by
  simp [refuseEntry]
@[simp] theorem refuseEntry_loader : (refuseEntry st e c s).loader = s.loader := by
  simp [refuseEntry]
@[simp] theorem refuseEntry_events : (refuseEntry st e c s).events = s.events := by
  simp [refuseEntry]
@[simp] theorem refuseEntry_choices : (refuseEntry st e c s).choices = s.choices := by
  simp [refuseEntry]
@[simp] theorem refuseEntry_pending : (refuseEntry st e c s).pending = s.pending := by
  simp [refuseEntry]
@[simp] theorem refuseEntry_extent (x_ : Nat) : (refuseEntry st e c s).extent x_ = s.extent x_ := by
  simp only [State.extent, refuseEntry_map]
@[simp] theorem refuseEntry_pair (x_ : Nat) : (refuseEntry st e c s).pair x_ = s.pair x_ := by
  simp only [State.pair, refuseEntry_map]
@[simp] theorem refuseEntry_bay (m_ : Nat) : (refuseEntry st e c s).bay m_ = s.bay m_ := by
  simp only [State.bay, refuseEntry_bays]
@[simp] theorem refuseEntry_event (m_ : Nat) : (refuseEntry st e c s).event m_ = s.event m_ := by
  simp only [State.event, refuseEntry_events]

end refuseEntry_keeps

section refuseQueue_keeps
variable (s : State) (st : Status) (e : Nat)

@[simp] theorem refuseQueue_map : (refuseQueue st e s).map = s.map := by
  unfold refuseQueue
  exact forEach_keeps (fun u => u.map) (fun _ _ => by simp) _
@[simp] theorem refuseQueue_clock : (refuseQueue st e s).clock = s.clock := by
  unfold refuseQueue
  exact forEach_keeps (fun u => u.clock) (fun _ _ => by simp) _
@[simp] theorem refuseQueue_bays : (refuseQueue st e s).bays = s.bays := by
  unfold refuseQueue
  exact forEach_keeps (fun u => u.bays) (fun _ _ => by simp) _
@[simp] theorem refuseQueue_watches : (refuseQueue st e s).watches = s.watches := by
  unfold refuseQueue
  exact forEach_keeps (fun u => u.watches) (fun _ _ => by simp) _
@[simp] theorem refuseQueue_fences : (refuseQueue st e s).fences = s.fences := by
  unfold refuseQueue
  exact forEach_keeps (fun u => u.fences) (fun _ _ => by simp) _
@[simp] theorem refuseQueue_loader : (refuseQueue st e s).loader = s.loader := by
  unfold refuseQueue
  exact forEach_keeps (fun u => u.loader) (fun _ _ => by simp) _
@[simp] theorem refuseQueue_events : (refuseQueue st e s).events = s.events := by
  unfold refuseQueue
  exact forEach_keeps (fun u => u.events) (fun _ _ => by simp) _
@[simp] theorem refuseQueue_choices : (refuseQueue st e s).choices = s.choices := by
  unfold refuseQueue
  exact forEach_keeps (fun u => u.choices) (fun _ _ => by simp) _
@[simp] theorem refuseQueue_pending : (refuseQueue st e s).pending = s.pending := by
  unfold refuseQueue
  exact forEach_keeps (fun u => u.pending) (fun _ _ => by simp) _
@[simp] theorem refuseQueue_extent (x_ : Nat) : (refuseQueue st e s).extent x_ = s.extent x_ := by
  simp only [State.extent, refuseQueue_map]
@[simp] theorem refuseQueue_pair (x_ : Nat) : (refuseQueue st e s).pair x_ = s.pair x_ := by
  simp only [State.pair, refuseQueue_map]
@[simp] theorem refuseQueue_bay (m_ : Nat) : (refuseQueue st e s).bay m_ = s.bay m_ := by
  simp only [State.bay, refuseQueue_bays]
@[simp] theorem refuseQueue_event (m_ : Nat) : (refuseQueue st e s).event m_ = s.event m_ := by
  simp only [State.event, refuseQueue_events]

end refuseQueue_keeps

section endUpgrade_keeps
variable (s : State) (st : Status) (slot : Nat)

@[simp] theorem endUpgrade_map : (endUpgrade st slot s).map = s.map := by
  unfold endUpgrade; dsimp only; split <;> simp
@[simp] theorem endUpgrade_clock : (endUpgrade st slot s).clock = s.clock := by
  unfold endUpgrade; dsimp only; split <;> simp
@[simp] theorem endUpgrade_bays : (endUpgrade st slot s).bays = s.bays := by
  unfold endUpgrade; dsimp only; split <;> simp
@[simp] theorem endUpgrade_watches : (endUpgrade st slot s).watches = s.watches := by
  unfold endUpgrade; dsimp only; split <;> simp
@[simp] theorem endUpgrade_fences : (endUpgrade st slot s).fences = s.fences := by
  unfold endUpgrade; dsimp only; split <;> simp
@[simp] theorem endUpgrade_loader : (endUpgrade st slot s).loader = s.loader := by
  unfold endUpgrade; dsimp only; split <;> simp
@[simp] theorem endUpgrade_events : (endUpgrade st slot s).events = s.events := by
  unfold endUpgrade; dsimp only; split <;> simp
@[simp] theorem endUpgrade_choices : (endUpgrade st slot s).choices = s.choices := by
  unfold endUpgrade; dsimp only; split <;> simp
@[simp] theorem endUpgrade_pending : (endUpgrade st slot s).pending = s.pending := by
  unfold endUpgrade; dsimp only; split <;> simp
@[simp] theorem endUpgrade_extent (x_ : Nat) : (endUpgrade st slot s).extent x_ = s.extent x_ := by
  simp only [State.extent, endUpgrade_map]
@[simp] theorem endUpgrade_pair (x_ : Nat) : (endUpgrade st slot s).pair x_ = s.pair x_ := by
  simp only [State.pair, endUpgrade_map]
@[simp] theorem endUpgrade_bay (m_ : Nat) : (endUpgrade st slot s).bay m_ = s.bay m_ := by
  simp only [State.bay, endUpgrade_bays]
@[simp] theorem endUpgrade_event (m_ : Nat) : (endUpgrade st slot s).event m_ = s.event m_ := by
  simp only [State.event, endUpgrade_events]

end endUpgrade_keeps

section grant_keeps
variable (s : State) (q : Req) (e : Nat) (m : Mode) (c slot : Nat)

@[simp] theorem grant_map : (grant q e m c slot s).map = s.map := by
  simp [grant]
@[simp] theorem grant_clock : (grant q e m c slot s).clock = s.clock := by
  simp [grant]
@[simp] theorem grant_bays : (grant q e m c slot s).bays = s.bays := by
  simp [grant]
@[simp] theorem grant_watches : (grant q e m c slot s).watches = s.watches := by
  simp [grant]
@[simp] theorem grant_fences : (grant q e m c slot s).fences = s.fences := by
  simp [grant]
@[simp] theorem grant_loader : (grant q e m c slot s).loader = s.loader := by
  simp [grant]
@[simp] theorem grant_events : (grant q e m c slot s).events = s.events := by
  simp [grant]
@[simp] theorem grant_choices : (grant q e m c slot s).choices = s.choices := by
  simp [grant]
@[simp] theorem grant_pending : (grant q e m c slot s).pending = s.pending := by
  simp [grant]
@[simp] theorem grant_extent (x_ : Nat) : (grant q e m c slot s).extent x_ = s.extent x_ := by
  simp only [State.extent, grant_map]
@[simp] theorem grant_pair (x_ : Nat) : (grant q e m c slot s).pair x_ = s.pair x_ := by
  simp only [State.pair, grant_map]
@[simp] theorem grant_bay (m_ : Nat) : (grant q e m c slot s).bay m_ = s.bay m_ := by
  simp only [State.bay, grant_bays]
@[simp] theorem grant_event (m_ : Nat) : (grant q e m c slot s).event m_ = s.event m_ := by
  simp only [State.event, grant_events]

end grant_keeps

section makeSole_keeps
variable (s : State) (slot : Nat)

@[simp] theorem makeSole_ports : (makeSole slot s).ports = s.ports := by
  simp [makeSole]
@[simp] theorem makeSole_roster : (makeSole slot s).roster = s.roster := by
  simp [makeSole]
@[simp] theorem makeSole_map : (makeSole slot s).map = s.map := by
  simp [makeSole]
@[simp] theorem makeSole_clock : (makeSole slot s).clock = s.clock := by
  simp [makeSole]
@[simp] theorem makeSole_bays : (makeSole slot s).bays = s.bays := by
  simp [makeSole]
@[simp] theorem makeSole_watches : (makeSole slot s).watches = s.watches := by
  simp [makeSole]
@[simp] theorem makeSole_fences : (makeSole slot s).fences = s.fences := by
  simp [makeSole]
@[simp] theorem makeSole_loader : (makeSole slot s).loader = s.loader := by
  simp [makeSole]
@[simp] theorem makeSole_events : (makeSole slot s).events = s.events := by
  simp [makeSole]
@[simp] theorem makeSole_choices : (makeSole slot s).choices = s.choices := by
  simp [makeSole]
@[simp] theorem makeSole_pending : (makeSole slot s).pending = s.pending := by
  simp [makeSole]
@[simp] theorem makeSole_port (q_ : PortId) : (makeSole slot s).port q_ = s.port q_ := by
  simp only [State.port, makeSole_ports]
@[simp] theorem makeSole_node (m_ : Nat) : (makeSole slot s).node m_ = s.node m_ := by
  simp only [State.node, makeSole_roster]
@[simp] theorem makeSole_extent (x_ : Nat) : (makeSole slot s).extent x_ = s.extent x_ := by
  simp only [State.extent, makeSole_map]
@[simp] theorem makeSole_pair (x_ : Nat) : (makeSole slot s).pair x_ = s.pair x_ := by
  simp only [State.pair, makeSole_map]
@[simp] theorem makeSole_bay (m_ : Nat) : (makeSole slot s).bay m_ = s.bay m_ := by
  simp only [State.bay, makeSole_bays]
@[simp] theorem makeSole_event (m_ : Nat) : (makeSole slot s).event m_ = s.event m_ := by
  simp only [State.event, makeSole_events]

end makeSole_keeps

section convertHead_keeps
variable (s : State) (e : Nat) (c : ClaimEntry) (h : Handle)

@[simp] theorem convertHead_map : (convertHead e c h s).map = s.map := by
  simp [convertHead]
@[simp] theorem convertHead_clock : (convertHead e c h s).clock = s.clock := by
  simp [convertHead]
@[simp] theorem convertHead_bays : (convertHead e c h s).bays = s.bays := by
  simp [convertHead]
@[simp] theorem convertHead_watches : (convertHead e c h s).watches = s.watches := by
  simp [convertHead]
@[simp] theorem convertHead_fences : (convertHead e c h s).fences = s.fences := by
  simp [convertHead]
@[simp] theorem convertHead_loader : (convertHead e c h s).loader = s.loader := by
  simp [convertHead]
@[simp] theorem convertHead_events : (convertHead e c h s).events = s.events := by
  simp [convertHead]
@[simp] theorem convertHead_choices : (convertHead e c h s).choices = s.choices := by
  simp [convertHead]
@[simp] theorem convertHead_pending : (convertHead e c h s).pending = s.pending := by
  simp [convertHead]
@[simp] theorem convertHead_extent (x_ : Nat) : (convertHead e c h s).extent x_ = s.extent x_ := by
  simp only [State.extent, convertHead_map]
@[simp] theorem convertHead_pair (x_ : Nat) : (convertHead e c h s).pair x_ = s.pair x_ := by
  simp only [State.pair, convertHead_map]
@[simp] theorem convertHead_bay (m_ : Nat) : (convertHead e c h s).bay m_ = s.bay m_ := by
  simp only [State.bay, convertHead_bays]
@[simp] theorem convertHead_event (m_ : Nat) : (convertHead e c h s).event m_ = s.event m_ := by
  simp only [State.event, convertHead_events]

end convertHead_keeps

section grantHead_keeps
variable (s : State) (e : Nat) (c : ClaimEntry) (m : Mode) (slot : Nat)

@[simp] theorem grantHead_map : (grantHead e c m slot s).map = s.map := by
  simp [grantHead]
@[simp] theorem grantHead_clock : (grantHead e c m slot s).clock = s.clock := by
  simp [grantHead]
@[simp] theorem grantHead_bays : (grantHead e c m slot s).bays = s.bays := by
  simp [grantHead]
@[simp] theorem grantHead_watches : (grantHead e c m slot s).watches = s.watches := by
  simp [grantHead]
@[simp] theorem grantHead_fences : (grantHead e c m slot s).fences = s.fences := by
  simp [grantHead]
@[simp] theorem grantHead_loader : (grantHead e c m slot s).loader = s.loader := by
  simp [grantHead]
@[simp] theorem grantHead_events : (grantHead e c m slot s).events = s.events := by
  simp [grantHead]
@[simp] theorem grantHead_choices : (grantHead e c m slot s).choices = s.choices := by
  simp [grantHead]
@[simp] theorem grantHead_pending : (grantHead e c m slot s).pending = s.pending := by
  simp [grantHead]
@[simp] theorem grantHead_extent (x_ : Nat) : (grantHead e c m slot s).extent x_ = s.extent x_ := by
  simp only [State.extent, grantHead_map]
@[simp] theorem grantHead_pair (x_ : Nat) : (grantHead e c m slot s).pair x_ = s.pair x_ := by
  simp only [State.pair, grantHead_map]
@[simp] theorem grantHead_bay (m_ : Nat) : (grantHead e c m slot s).bay m_ = s.bay m_ := by
  simp only [State.bay, grantHead_bays]
@[simp] theorem grantHead_event (m_ : Nat) : (grantHead e c m slot s).event m_ = s.event m_ := by
  simp only [State.event, grantHead_events]

end grantHead_keeps

section serveHeads_keeps
variable (s : State) (fuel e : Nat)

@[simp] theorem serveHeads_map : (serveHeads fuel e s).map = s.map := by
  induction fuel generalizing s with
  | zero => rfl
  | succ fuel ih => unfold serveHeads; repeat' split
                    all_goals simp [ih]
@[simp] theorem serveHeads_clock : (serveHeads fuel e s).clock = s.clock := by
  induction fuel generalizing s with
  | zero => rfl
  | succ fuel ih => unfold serveHeads; repeat' split
                    all_goals simp [ih]
@[simp] theorem serveHeads_bays : (serveHeads fuel e s).bays = s.bays := by
  induction fuel generalizing s with
  | zero => rfl
  | succ fuel ih => unfold serveHeads; repeat' split
                    all_goals simp [ih]
@[simp] theorem serveHeads_watches : (serveHeads fuel e s).watches = s.watches := by
  induction fuel generalizing s with
  | zero => rfl
  | succ fuel ih => unfold serveHeads; repeat' split
                    all_goals simp [ih]
@[simp] theorem serveHeads_fences : (serveHeads fuel e s).fences = s.fences := by
  induction fuel generalizing s with
  | zero => rfl
  | succ fuel ih => unfold serveHeads; repeat' split
                    all_goals simp [ih]
@[simp] theorem serveHeads_loader : (serveHeads fuel e s).loader = s.loader := by
  induction fuel generalizing s with
  | zero => rfl
  | succ fuel ih => unfold serveHeads; repeat' split
                    all_goals simp [ih]
@[simp] theorem serveHeads_choices : (serveHeads fuel e s).choices = s.choices := by
  induction fuel generalizing s with
  | zero => rfl
  | succ fuel ih => unfold serveHeads; repeat' split
                    all_goals simp [ih]
@[simp] theorem serveHeads_pending : (serveHeads fuel e s).pending = s.pending := by
  induction fuel generalizing s with
  | zero => rfl
  | succ fuel ih => unfold serveHeads; repeat' split
                    all_goals simp [ih]
@[simp] theorem serveHeads_extent (x_ : Nat) : (serveHeads fuel e s).extent x_ = s.extent x_ := by
  simp only [State.extent, serveHeads_map]
@[simp] theorem serveHeads_pair (x_ : Nat) : (serveHeads fuel e s).pair x_ = s.pair x_ := by
  simp only [State.pair, serveHeads_map]
@[simp] theorem serveHeads_bay (m_ : Nat) : (serveHeads fuel e s).bay m_ = s.bay m_ := by
  simp only [State.bay, serveHeads_bays]

end serveHeads_keeps

section reevaluate_keeps
variable (s : State) (e : Nat)

@[simp] theorem reevaluate_map : (reevaluate e s).map = s.map := by
  simp [reevaluate]
@[simp] theorem reevaluate_clock : (reevaluate e s).clock = s.clock := by
  simp [reevaluate]
@[simp] theorem reevaluate_bays : (reevaluate e s).bays = s.bays := by
  simp [reevaluate]
@[simp] theorem reevaluate_watches : (reevaluate e s).watches = s.watches := by
  simp [reevaluate]
@[simp] theorem reevaluate_fences : (reevaluate e s).fences = s.fences := by
  simp [reevaluate]
@[simp] theorem reevaluate_loader : (reevaluate e s).loader = s.loader := by
  simp [reevaluate]
@[simp] theorem reevaluate_choices : (reevaluate e s).choices = s.choices := by
  simp [reevaluate]
@[simp] theorem reevaluate_pending : (reevaluate e s).pending = s.pending := by
  simp [reevaluate]
@[simp] theorem reevaluate_extent (x_ : Nat) : (reevaluate e s).extent x_ = s.extent x_ := by
  simp only [State.extent, reevaluate_map]
@[simp] theorem reevaluate_pair (x_ : Nat) : (reevaluate e s).pair x_ = s.pair x_ := by
  simp only [State.pair, reevaluate_map]
@[simp] theorem reevaluate_bay (m_ : Nat) : (reevaluate e s).bay m_ = s.bay m_ := by
  simp only [State.bay, reevaluate_bays]

end reevaluate_keeps

section serveWaitFrom_keeps
variable (s : State) (fuel : Nat)

@[simp] theorem serveWaitFrom_map : (serveWaitFrom fuel s).map = s.map := by
  induction fuel generalizing s with
  | zero => rfl
  | succ fuel ih => unfold serveWaitFrom; repeat' split
                    all_goals simp [ih]
@[simp] theorem serveWaitFrom_clock : (serveWaitFrom fuel s).clock = s.clock := by
  induction fuel generalizing s with
  | zero => rfl
  | succ fuel ih => unfold serveWaitFrom; repeat' split
                    all_goals simp [ih]
@[simp] theorem serveWaitFrom_bays : (serveWaitFrom fuel s).bays = s.bays := by
  induction fuel generalizing s with
  | zero => rfl
  | succ fuel ih => unfold serveWaitFrom; repeat' split
                    all_goals simp [ih]
@[simp] theorem serveWaitFrom_watches : (serveWaitFrom fuel s).watches = s.watches := by
  induction fuel generalizing s with
  | zero => rfl
  | succ fuel ih => unfold serveWaitFrom; repeat' split
                    all_goals simp [ih]
@[simp] theorem serveWaitFrom_fences : (serveWaitFrom fuel s).fences = s.fences := by
  induction fuel generalizing s with
  | zero => rfl
  | succ fuel ih => unfold serveWaitFrom; repeat' split
                    all_goals simp [ih]
@[simp] theorem serveWaitFrom_loader : (serveWaitFrom fuel s).loader = s.loader := by
  induction fuel generalizing s with
  | zero => rfl
  | succ fuel ih => unfold serveWaitFrom; repeat' split
                    all_goals simp [ih]
@[simp] theorem serveWaitFrom_choices : (serveWaitFrom fuel s).choices = s.choices := by
  induction fuel generalizing s with
  | zero => rfl
  | succ fuel ih => unfold serveWaitFrom; repeat' split
                    all_goals simp [ih]
@[simp] theorem serveWaitFrom_pending : (serveWaitFrom fuel s).pending = s.pending := by
  induction fuel generalizing s with
  | zero => rfl
  | succ fuel ih => unfold serveWaitFrom; repeat' split
                    all_goals simp [ih]
@[simp] theorem serveWaitFrom_extent (x_ : Nat) : (serveWaitFrom fuel s).extent x_ = s.extent x_ := by
  simp only [State.extent, serveWaitFrom_map]
@[simp] theorem serveWaitFrom_pair (x_ : Nat) : (serveWaitFrom fuel s).pair x_ = s.pair x_ := by
  simp only [State.pair, serveWaitFrom_map]
@[simp] theorem serveWaitFrom_bay (m_ : Nat) : (serveWaitFrom fuel s).bay m_ = s.bay m_ := by
  simp only [State.bay, serveWaitFrom_bays]

end serveWaitFrom_keeps

section serveTableWait_keeps
variable (s : State)

@[simp] theorem serveTableWait_map : (serveTableWait s).map = s.map := by
  simp [serveTableWait]
@[simp] theorem serveTableWait_clock : (serveTableWait s).clock = s.clock := by
  simp [serveTableWait]
@[simp] theorem serveTableWait_bays : (serveTableWait s).bays = s.bays := by
  simp [serveTableWait]
@[simp] theorem serveTableWait_watches : (serveTableWait s).watches = s.watches := by
  simp [serveTableWait]
@[simp] theorem serveTableWait_fences : (serveTableWait s).fences = s.fences := by
  simp [serveTableWait]
@[simp] theorem serveTableWait_loader : (serveTableWait s).loader = s.loader := by
  simp [serveTableWait]
@[simp] theorem serveTableWait_choices : (serveTableWait s).choices = s.choices := by
  simp [serveTableWait]
@[simp] theorem serveTableWait_pending : (serveTableWait s).pending = s.pending := by
  simp [serveTableWait]
@[simp] theorem serveTableWait_extent (x_ : Nat) : (serveTableWait s).extent x_ = s.extent x_ := by
  simp only [State.extent, serveTableWait_map]
@[simp] theorem serveTableWait_pair (x_ : Nat) : (serveTableWait s).pair x_ = s.pair x_ := by
  simp only [State.pair, serveTableWait_map]
@[simp] theorem serveTableWait_bay (m_ : Nat) : (serveTableWait s).bay m_ = s.bay m_ := by
  simp only [State.bay, serveTableWait_bays]

end serveTableWait_keeps

section serveAfterFree_keeps
variable (s : State) (e : Nat)

@[simp] theorem serveAfterFree_map : (serveAfterFree e s).map = s.map := by
  simp [serveAfterFree]
@[simp] theorem serveAfterFree_clock : (serveAfterFree e s).clock = s.clock := by
  simp [serveAfterFree]
@[simp] theorem serveAfterFree_bays : (serveAfterFree e s).bays = s.bays := by
  simp [serveAfterFree]
@[simp] theorem serveAfterFree_watches : (serveAfterFree e s).watches = s.watches := by
  simp [serveAfterFree]
@[simp] theorem serveAfterFree_fences : (serveAfterFree e s).fences = s.fences := by
  simp [serveAfterFree]
@[simp] theorem serveAfterFree_loader : (serveAfterFree e s).loader = s.loader := by
  simp [serveAfterFree]
@[simp] theorem serveAfterFree_choices : (serveAfterFree e s).choices = s.choices := by
  simp [serveAfterFree]
@[simp] theorem serveAfterFree_pending : (serveAfterFree e s).pending = s.pending := by
  simp [serveAfterFree]
@[simp] theorem serveAfterFree_extent (x_ : Nat) : (serveAfterFree e s).extent x_ = s.extent x_ := by
  simp only [State.extent, serveAfterFree_map]
@[simp] theorem serveAfterFree_pair (x_ : Nat) : (serveAfterFree e s).pair x_ = s.pair x_ := by
  simp only [State.pair, serveAfterFree_map]
@[simp] theorem serveAfterFree_bay (m_ : Nat) : (serveAfterFree e s).bay m_ = s.bay m_ := by
  simp only [State.bay, serveAfterFree_bays]

end serveAfterFree_keeps

section freeLoan_keeps
variable (s : State) (slot : Nat) (cause : EndCause)

@[simp] theorem freeLoan_clock : (freeLoan slot cause s).clock = s.clock := by
  unfold freeLoan onlyIf; dsimp only; repeat' split
  all_goals simp
@[simp] theorem freeLoan_bays : (freeLoan slot cause s).bays = s.bays := by
  unfold freeLoan onlyIf; dsimp only; repeat' split
  all_goals simp
@[simp] theorem freeLoan_fences : (freeLoan slot cause s).fences = s.fences := by
  unfold freeLoan onlyIf; dsimp only; repeat' split
  all_goals simp
@[simp] theorem freeLoan_loader : (freeLoan slot cause s).loader = s.loader := by
  unfold freeLoan onlyIf; dsimp only; repeat' split
  all_goals simp
@[simp] theorem freeLoan_pending : (freeLoan slot cause s).pending = s.pending := by
  unfold freeLoan onlyIf; dsimp only; repeat' split
  all_goals simp
@[simp] theorem freeLoan_bay (m_ : Nat) : (freeLoan slot cause s).bay m_ = s.bay m_ := by
  simp only [State.bay, freeLoan_bays]

end freeLoan_keeps

section endLoan_keeps
variable (s : State) (t : Tests) (slot : Nat) (cause : EndCause)

@[simp] theorem endLoan_clock : (endLoan t slot cause s).clock = s.clock := by
  simp [endLoan]
@[simp] theorem endLoan_pending : (endLoan t slot cause s).pending = s.pending := by
  simp [endLoan]

end endLoan_keeps

section closeLoan_keeps
variable (s : State) (slot : Nat) (cause : EndCause)

@[simp] theorem closeLoan_ports : (closeLoan slot cause s).ports = s.ports := by
  simp [closeLoan]
@[simp] theorem closeLoan_roster : (closeLoan slot cause s).roster = s.roster := by
  simp [closeLoan]
@[simp] theorem closeLoan_map : (closeLoan slot cause s).map = s.map := by
  simp [closeLoan]
@[simp] theorem closeLoan_clock : (closeLoan slot cause s).clock = s.clock := by
  simp [closeLoan]
@[simp] theorem closeLoan_bays : (closeLoan slot cause s).bays = s.bays := by
  simp [closeLoan]
@[simp] theorem closeLoan_watches : (closeLoan slot cause s).watches = s.watches := by
  simp [closeLoan]
@[simp] theorem closeLoan_fences : (closeLoan slot cause s).fences = s.fences := by
  simp [closeLoan]
@[simp] theorem closeLoan_loader : (closeLoan slot cause s).loader = s.loader := by
  simp [closeLoan]
@[simp] theorem closeLoan_events : (closeLoan slot cause s).events = s.events := by
  simp [closeLoan]
@[simp] theorem closeLoan_choices : (closeLoan slot cause s).choices = s.choices := by
  simp [closeLoan]
@[simp] theorem closeLoan_pending : (closeLoan slot cause s).pending = s.pending := by
  simp [closeLoan]
@[simp] theorem closeLoan_port (q_ : PortId) : (closeLoan slot cause s).port q_ = s.port q_ := by
  simp only [State.port, closeLoan_ports]
@[simp] theorem closeLoan_node (m_ : Nat) : (closeLoan slot cause s).node m_ = s.node m_ := by
  simp only [State.node, closeLoan_roster]
@[simp] theorem closeLoan_extent (x_ : Nat) : (closeLoan slot cause s).extent x_ = s.extent x_ := by
  simp only [State.extent, closeLoan_map]
@[simp] theorem closeLoan_pair (x_ : Nat) : (closeLoan slot cause s).pair x_ = s.pair x_ := by
  simp only [State.pair, closeLoan_map]
@[simp] theorem closeLoan_bay (m_ : Nat) : (closeLoan slot cause s).bay m_ = s.bay m_ := by
  simp only [State.bay, closeLoan_bays]
@[simp] theorem closeLoan_event (m_ : Nat) : (closeLoan slot cause s).event m_ = s.event m_ := by
  simp only [State.event, closeLoan_events]

end closeLoan_keeps

section issueTest_keeps
variable (s : State) (b : Nat)

@[simp] theorem issueTest_ports : (issueTest b s).ports = s.ports := by
  unfold issueTest; repeat' split
  all_goals simp
@[simp] theorem issueTest_roster : (issueTest b s).roster = s.roster := by
  unfold issueTest; repeat' split
  all_goals simp
@[simp] theorem issueTest_map : (issueTest b s).map = s.map := by
  unfold issueTest; repeat' split
  all_goals simp
@[simp] theorem issueTest_loans : (issueTest b s).loans = s.loans := by
  unfold issueTest; repeat' split
  all_goals simp
@[simp] theorem issueTest_clock : (issueTest b s).clock = s.clock := by
  unfold issueTest; repeat' split
  all_goals simp
@[simp] theorem issueTest_watches : (issueTest b s).watches = s.watches := by
  unfold issueTest; repeat' split
  all_goals simp
@[simp] theorem issueTest_fences : (issueTest b s).fences = s.fences := by
  unfold issueTest; repeat' split
  all_goals simp
@[simp] theorem issueTest_loader : (issueTest b s).loader = s.loader := by
  unfold issueTest; repeat' split
  all_goals simp
@[simp] theorem issueTest_events : (issueTest b s).events = s.events := by
  unfold issueTest; repeat' split
  all_goals simp
@[simp] theorem issueTest_choices : (issueTest b s).choices = s.choices := by
  unfold issueTest; repeat' split
  all_goals simp
@[simp] theorem issueTest_pending : (issueTest b s).pending = s.pending := by
  unfold issueTest; repeat' split
  all_goals simp
@[simp] theorem issueTest_port (q_ : PortId) : (issueTest b s).port q_ = s.port q_ := by
  simp only [State.port, issueTest_ports]
@[simp] theorem issueTest_node (m_ : Nat) : (issueTest b s).node m_ = s.node m_ := by
  simp only [State.node, issueTest_roster]
@[simp] theorem issueTest_extent (x_ : Nat) : (issueTest b s).extent x_ = s.extent x_ := by
  simp only [State.extent, issueTest_map]
@[simp] theorem issueTest_pair (x_ : Nat) : (issueTest b s).pair x_ = s.pair x_ := by
  simp only [State.pair, issueTest_map]
@[simp] theorem issueTest_loan (m_ : Nat) : (issueTest b s).loan m_ = s.loan m_ := by
  simp only [State.loan, issueTest_loans]
@[simp] theorem issueTest_xl (x_ : Nat) : (issueTest b s).xl x_ = s.xl x_ := by
  simp only [State.xl, issueTest_loans]
@[simp] theorem issueTest_summary (x_ : Nat) : (issueTest b s).summary x_ = s.summary x_ := by
  simp only [State.summary, State.loansOn, issueTest_loans]
@[simp] theorem issueTest_event (m_ : Nat) : (issueTest b s).event m_ = s.event m_ := by
  simp only [State.event, issueTest_events]

end issueTest_keeps

section joinBay_keeps
variable (s : State) (b : Nat) (x : Transfer)

@[simp] theorem joinBay_ports : (joinBay b x s).ports = s.ports := by
  unfold joinBay onlyIf; split <;> simp
@[simp] theorem joinBay_roster : (joinBay b x s).roster = s.roster := by
  unfold joinBay onlyIf; split <;> simp
@[simp] theorem joinBay_map : (joinBay b x s).map = s.map := by
  unfold joinBay onlyIf; split <;> simp
@[simp] theorem joinBay_loans : (joinBay b x s).loans = s.loans := by
  unfold joinBay onlyIf; split <;> simp
@[simp] theorem joinBay_clock : (joinBay b x s).clock = s.clock := by
  unfold joinBay onlyIf; split <;> simp
@[simp] theorem joinBay_watches : (joinBay b x s).watches = s.watches := by
  unfold joinBay onlyIf; split <;> simp
@[simp] theorem joinBay_fences : (joinBay b x s).fences = s.fences := by
  unfold joinBay onlyIf; split <;> simp
@[simp] theorem joinBay_loader : (joinBay b x s).loader = s.loader := by
  unfold joinBay onlyIf; split <;> simp
@[simp] theorem joinBay_events : (joinBay b x s).events = s.events := by
  unfold joinBay onlyIf; split <;> simp
@[simp] theorem joinBay_choices : (joinBay b x s).choices = s.choices := by
  unfold joinBay onlyIf; split <;> simp
@[simp] theorem joinBay_pending : (joinBay b x s).pending = s.pending := by
  unfold joinBay onlyIf; split <;> simp
@[simp] theorem joinBay_port (q_ : PortId) : (joinBay b x s).port q_ = s.port q_ := by
  simp only [State.port, joinBay_ports]
@[simp] theorem joinBay_node (m_ : Nat) : (joinBay b x s).node m_ = s.node m_ := by
  simp only [State.node, joinBay_roster]
@[simp] theorem joinBay_extent (x_ : Nat) : (joinBay b x s).extent x_ = s.extent x_ := by
  simp only [State.extent, joinBay_map]
@[simp] theorem joinBay_pair (x_ : Nat) : (joinBay b x s).pair x_ = s.pair x_ := by
  simp only [State.pair, joinBay_map]
@[simp] theorem joinBay_loan (m_ : Nat) : (joinBay b x s).loan m_ = s.loan m_ := by
  simp only [State.loan, joinBay_loans]
@[simp] theorem joinBay_xl (x_ : Nat) : (joinBay b x s).xl x_ = s.xl x_ := by
  simp only [State.xl, joinBay_loans]
@[simp] theorem joinBay_summary (x_ : Nat) : (joinBay b x s).summary x_ = s.summary x_ := by
  simp only [State.summary, State.loansOn, joinBay_loans]
@[simp] theorem joinBay_event (m_ : Nat) : (joinBay b x s).event m_ = s.event m_ := by
  simp only [State.event, joinBay_events]

end joinBay_keeps

section setHits_keeps
variable (s : State) (l : List Nat)

@[simp] theorem setHits_ports : (setHits l s).ports = s.ports := by
  simp [setHits]
@[simp] theorem setHits_roster : (setHits l s).roster = s.roster := by
  simp [setHits]
@[simp] theorem setHits_map : (setHits l s).map = s.map := by
  simp [setHits]
@[simp] theorem setHits_loans : (setHits l s).loans = s.loans := by
  simp [setHits]
@[simp] theorem setHits_clock : (setHits l s).clock = s.clock := by
  simp [setHits]
@[simp] theorem setHits_bays : (setHits l s).bays = s.bays := by
  simp [setHits]
@[simp] theorem setHits_watches : (setHits l s).watches = s.watches := by
  simp [setHits]
@[simp] theorem setHits_loader : (setHits l s).loader = s.loader := by
  simp [setHits]
@[simp] theorem setHits_events : (setHits l s).events = s.events := by
  simp [setHits]
@[simp] theorem setHits_choices : (setHits l s).choices = s.choices := by
  simp [setHits]
@[simp] theorem setHits_pending : (setHits l s).pending = s.pending := by
  simp [setHits]
@[simp] theorem setHits_port (q_ : PortId) : (setHits l s).port q_ = s.port q_ := by
  simp only [State.port, setHits_ports]
@[simp] theorem setHits_node (m_ : Nat) : (setHits l s).node m_ = s.node m_ := by
  simp only [State.node, setHits_roster]
@[simp] theorem setHits_extent (x_ : Nat) : (setHits l s).extent x_ = s.extent x_ := by
  simp only [State.extent, setHits_map]
@[simp] theorem setHits_pair (x_ : Nat) : (setHits l s).pair x_ = s.pair x_ := by
  simp only [State.pair, setHits_map]
@[simp] theorem setHits_loan (m_ : Nat) : (setHits l s).loan m_ = s.loan m_ := by
  simp only [State.loan, setHits_loans]
@[simp] theorem setHits_xl (x_ : Nat) : (setHits l s).xl x_ = s.xl x_ := by
  simp only [State.xl, setHits_loans]
@[simp] theorem setHits_summary (x_ : Nat) : (setHits l s).summary x_ = s.summary x_ := by
  simp only [State.summary, State.loansOn, setHits_loans]
@[simp] theorem setHits_bay (m_ : Nat) : (setHits l s).bay m_ = s.bay m_ := by
  simp only [State.bay, setHits_bays]
@[simp] theorem setHits_event (m_ : Nat) : (setHits l s).event m_ = s.event m_ := by
  simp only [State.event, setHits_events]

end setHits_keeps

section recordHit_keeps
variable (s : State) (k : FencedKind) (b first count node e : Nat)

@[simp] theorem recordHit_roster : (recordHit k b first count node e s).roster = s.roster := by
  simp [recordHit]
@[simp] theorem recordHit_map : (recordHit k b first count node e s).map = s.map := by
  simp [recordHit]
@[simp] theorem recordHit_loans : (recordHit k b first count node e s).loans = s.loans := by
  simp [recordHit]
@[simp] theorem recordHit_clock : (recordHit k b first count node e s).clock = s.clock := by
  simp [recordHit]
@[simp] theorem recordHit_bays : (recordHit k b first count node e s).bays = s.bays := by
  simp [recordHit]
@[simp] theorem recordHit_watches : (recordHit k b first count node e s).watches = s.watches := by
  simp [recordHit]
@[simp] theorem recordHit_loader : (recordHit k b first count node e s).loader = s.loader := by
  simp [recordHit]
@[simp] theorem recordHit_choices : (recordHit k b first count node e s).choices = s.choices := by
  simp [recordHit]
@[simp] theorem recordHit_pending : (recordHit k b first count node e s).pending = s.pending := by
  simp [recordHit]
@[simp] theorem recordHit_node (m_ : Nat) : (recordHit k b first count node e s).node m_ = s.node m_ := by
  simp only [State.node, recordHit_roster]
@[simp] theorem recordHit_extent (x_ : Nat) : (recordHit k b first count node e s).extent x_ = s.extent x_ := by
  simp only [State.extent, recordHit_map]
@[simp] theorem recordHit_pair (x_ : Nat) : (recordHit k b first count node e s).pair x_ = s.pair x_ := by
  simp only [State.pair, recordHit_map]
@[simp] theorem recordHit_loan (m_ : Nat) : (recordHit k b first count node e s).loan m_ = s.loan m_ := by
  simp only [State.loan, recordHit_loans]
@[simp] theorem recordHit_xl (x_ : Nat) : (recordHit k b first count node e s).xl x_ = s.xl x_ := by
  simp only [State.xl, recordHit_loans]
@[simp] theorem recordHit_summary (x_ : Nat) : (recordHit k b first count node e s).summary x_ = s.summary x_ := by
  simp only [State.summary, State.loansOn, recordHit_loans]
@[simp] theorem recordHit_bay (m_ : Nat) : (recordHit k b first count node e s).bay m_ = s.bay m_ := by
  simp only [State.bay, recordHit_bays]

end recordHit_keeps

section holdRequest_keeps
variable (s : State) (q : Req) (args : HeldArgs) (l : List Nat)

@[simp] theorem holdRequest_map : (holdRequest q args l s).map = s.map := by
  unfold holdRequest; split <;> simp
@[simp] theorem holdRequest_loans : (holdRequest q args l s).loans = s.loans := by
  unfold holdRequest; split <;> simp
@[simp] theorem holdRequest_clock : (holdRequest q args l s).clock = s.clock := by
  unfold holdRequest; split <;> simp
@[simp] theorem holdRequest_bays : (holdRequest q args l s).bays = s.bays := by
  unfold holdRequest; split <;> simp
@[simp] theorem holdRequest_watches : (holdRequest q args l s).watches = s.watches := by
  unfold holdRequest; split <;> simp
@[simp] theorem holdRequest_loader : (holdRequest q args l s).loader = s.loader := by
  unfold holdRequest; split <;> simp
@[simp] theorem holdRequest_choices : (holdRequest q args l s).choices = s.choices := by
  unfold holdRequest; split <;> simp
@[simp] theorem holdRequest_pending : (holdRequest q args l s).pending = s.pending := by
  unfold holdRequest; split <;> simp
@[simp] theorem holdRequest_extent (x_ : Nat) : (holdRequest q args l s).extent x_ = s.extent x_ := by
  simp only [State.extent, holdRequest_map]
@[simp] theorem holdRequest_pair (x_ : Nat) : (holdRequest q args l s).pair x_ = s.pair x_ := by
  simp only [State.pair, holdRequest_map]
@[simp] theorem holdRequest_loan (m_ : Nat) : (holdRequest q args l s).loan m_ = s.loan m_ := by
  simp only [State.loan, holdRequest_loans]
@[simp] theorem holdRequest_xl (x_ : Nat) : (holdRequest q args l s).xl x_ = s.xl x_ := by
  simp only [State.xl, holdRequest_loans]
@[simp] theorem holdRequest_summary (x_ : Nat) : (holdRequest q args l s).summary x_ = s.summary x_ := by
  simp only [State.summary, State.loansOn, holdRequest_loans]
@[simp] theorem holdRequest_bay (m_ : Nat) : (holdRequest q args l s).bay m_ = s.bay m_ := by
  simp only [State.bay, holdRequest_bays]

end holdRequest_keeps

section dropHeld_keeps
variable (s : State) (i : Nat)

@[simp] theorem dropHeld_ports : (dropHeld i s).ports = s.ports := by
  simp [dropHeld]
@[simp] theorem dropHeld_roster : (dropHeld i s).roster = s.roster := by
  simp [dropHeld]
@[simp] theorem dropHeld_map : (dropHeld i s).map = s.map := by
  simp [dropHeld]
@[simp] theorem dropHeld_loans : (dropHeld i s).loans = s.loans := by
  simp [dropHeld]
@[simp] theorem dropHeld_clock : (dropHeld i s).clock = s.clock := by
  simp [dropHeld]
@[simp] theorem dropHeld_bays : (dropHeld i s).bays = s.bays := by
  simp [dropHeld]
@[simp] theorem dropHeld_watches : (dropHeld i s).watches = s.watches := by
  simp [dropHeld]
@[simp] theorem dropHeld_loader : (dropHeld i s).loader = s.loader := by
  simp [dropHeld]
@[simp] theorem dropHeld_events : (dropHeld i s).events = s.events := by
  simp [dropHeld]
@[simp] theorem dropHeld_choices : (dropHeld i s).choices = s.choices := by
  simp [dropHeld]
@[simp] theorem dropHeld_pending : (dropHeld i s).pending = s.pending := by
  simp [dropHeld]
@[simp] theorem dropHeld_port (q_ : PortId) : (dropHeld i s).port q_ = s.port q_ := by
  simp only [State.port, dropHeld_ports]
@[simp] theorem dropHeld_node (m_ : Nat) : (dropHeld i s).node m_ = s.node m_ := by
  simp only [State.node, dropHeld_roster]
@[simp] theorem dropHeld_extent (x_ : Nat) : (dropHeld i s).extent x_ = s.extent x_ := by
  simp only [State.extent, dropHeld_map]
@[simp] theorem dropHeld_pair (x_ : Nat) : (dropHeld i s).pair x_ = s.pair x_ := by
  simp only [State.pair, dropHeld_map]
@[simp] theorem dropHeld_loan (m_ : Nat) : (dropHeld i s).loan m_ = s.loan m_ := by
  simp only [State.loan, dropHeld_loans]
@[simp] theorem dropHeld_xl (x_ : Nat) : (dropHeld i s).xl x_ = s.xl x_ := by
  simp only [State.xl, dropHeld_loans]
@[simp] theorem dropHeld_summary (x_ : Nat) : (dropHeld i s).summary x_ = s.summary x_ := by
  simp only [State.summary, State.loansOn, dropHeld_loans]
@[simp] theorem dropHeld_bay (m_ : Nat) : (dropHeld i s).bay m_ = s.bay m_ := by
  simp only [State.bay, dropHeld_bays]
@[simp] theorem dropHeld_event (m_ : Nat) : (dropHeld i s).event m_ = s.event m_ := by
  simp only [State.event, dropHeld_events]

end dropHeld_keeps

section latch_keeps
variable (s : State) (e n : Nat) (st : WatchState)

@[simp] theorem latch_ports : (latch e n st s).ports = s.ports := by
  simp [latch]
@[simp] theorem latch_roster : (latch e n st s).roster = s.roster := by
  simp [latch]
@[simp] theorem latch_map : (latch e n st s).map = s.map := by
  simp [latch]
@[simp] theorem latch_loans : (latch e n st s).loans = s.loans := by
  simp [latch]
@[simp] theorem latch_clock : (latch e n st s).clock = s.clock := by
  simp [latch]
@[simp] theorem latch_bays : (latch e n st s).bays = s.bays := by
  simp [latch]
@[simp] theorem latch_fences : (latch e n st s).fences = s.fences := by
  simp [latch]
@[simp] theorem latch_loader : (latch e n st s).loader = s.loader := by
  simp [latch]
@[simp] theorem latch_events : (latch e n st s).events = s.events := by
  simp [latch]
@[simp] theorem latch_choices : (latch e n st s).choices = s.choices := by
  simp [latch]
@[simp] theorem latch_pending : (latch e n st s).pending = s.pending := by
  simp [latch]
@[simp] theorem latch_port (q_ : PortId) : (latch e n st s).port q_ = s.port q_ := by
  simp only [State.port, latch_ports]
@[simp] theorem latch_node (m_ : Nat) : (latch e n st s).node m_ = s.node m_ := by
  simp only [State.node, latch_roster]
@[simp] theorem latch_extent (x_ : Nat) : (latch e n st s).extent x_ = s.extent x_ := by
  simp only [State.extent, latch_map]
@[simp] theorem latch_pair (x_ : Nat) : (latch e n st s).pair x_ = s.pair x_ := by
  simp only [State.pair, latch_map]
@[simp] theorem latch_loan (m_ : Nat) : (latch e n st s).loan m_ = s.loan m_ := by
  simp only [State.loan, latch_loans]
@[simp] theorem latch_xl (x_ : Nat) : (latch e n st s).xl x_ = s.xl x_ := by
  simp only [State.xl, latch_loans]
@[simp] theorem latch_summary (x_ : Nat) : (latch e n st s).summary x_ = s.summary x_ := by
  simp only [State.summary, State.loansOn, latch_loans]
@[simp] theorem latch_bay (m_ : Nat) : (latch e n st s).bay m_ = s.bay m_ := by
  simp only [State.bay, latch_bays]
@[simp] theorem latch_event (m_ : Nat) : (latch e n st s).event m_ = s.event m_ := by
  simp only [State.event, latch_events]

end latch_keeps

section restartOpenTimer_keeps
variable (s : State)

@[simp] theorem restartOpenTimer_ports : (restartOpenTimer s).ports = s.ports := by
  simp [restartOpenTimer]
@[simp] theorem restartOpenTimer_roster : (restartOpenTimer s).roster = s.roster := by
  simp [restartOpenTimer]
@[simp] theorem restartOpenTimer_map : (restartOpenTimer s).map = s.map := by
  simp [restartOpenTimer]
@[simp] theorem restartOpenTimer_loans : (restartOpenTimer s).loans = s.loans := by
  simp [restartOpenTimer]
@[simp] theorem restartOpenTimer_clock : (restartOpenTimer s).clock = s.clock := by
  simp [restartOpenTimer]
@[simp] theorem restartOpenTimer_bays : (restartOpenTimer s).bays = s.bays := by
  simp [restartOpenTimer]
@[simp] theorem restartOpenTimer_watches : (restartOpenTimer s).watches = s.watches := by
  simp [restartOpenTimer]
@[simp] theorem restartOpenTimer_fences : (restartOpenTimer s).fences = s.fences := by
  simp [restartOpenTimer]
@[simp] theorem restartOpenTimer_events : (restartOpenTimer s).events = s.events := by
  simp [restartOpenTimer]
@[simp] theorem restartOpenTimer_choices : (restartOpenTimer s).choices = s.choices := by
  simp [restartOpenTimer]
@[simp] theorem restartOpenTimer_pending : (restartOpenTimer s).pending = s.pending := by
  simp [restartOpenTimer]
@[simp] theorem restartOpenTimer_port (q_ : PortId) : (restartOpenTimer s).port q_ = s.port q_ := by
  simp only [State.port, restartOpenTimer_ports]
@[simp] theorem restartOpenTimer_node (m_ : Nat) : (restartOpenTimer s).node m_ = s.node m_ := by
  simp only [State.node, restartOpenTimer_roster]
@[simp] theorem restartOpenTimer_extent (x_ : Nat) : (restartOpenTimer s).extent x_ = s.extent x_ := by
  simp only [State.extent, restartOpenTimer_map]
@[simp] theorem restartOpenTimer_pair (x_ : Nat) : (restartOpenTimer s).pair x_ = s.pair x_ := by
  simp only [State.pair, restartOpenTimer_map]
@[simp] theorem restartOpenTimer_loan (m_ : Nat) : (restartOpenTimer s).loan m_ = s.loan m_ := by
  simp only [State.loan, restartOpenTimer_loans]
@[simp] theorem restartOpenTimer_xl (x_ : Nat) : (restartOpenTimer s).xl x_ = s.xl x_ := by
  simp only [State.xl, restartOpenTimer_loans]
@[simp] theorem restartOpenTimer_summary (x_ : Nat) : (restartOpenTimer s).summary x_ = s.summary x_ := by
  simp only [State.summary, State.loansOn, restartOpenTimer_loans]
@[simp] theorem restartOpenTimer_bay (m_ : Nat) : (restartOpenTimer s).bay m_ = s.bay m_ := by
  simp only [State.bay, restartOpenTimer_bays]
@[simp] theorem restartOpenTimer_event (m_ : Nat) : (restartOpenTimer s).event m_ = s.event m_ := by
  simp only [State.event, restartOpenTimer_events]

end restartOpenTimer_keeps

section dropWatchesOf_keeps
variable (s : State) (n : Nat)

@[simp] theorem dropWatchesOf_ports : (dropWatchesOf n s).ports = s.ports := by
  simp [dropWatchesOf]
@[simp] theorem dropWatchesOf_roster : (dropWatchesOf n s).roster = s.roster := by
  simp [dropWatchesOf]
@[simp] theorem dropWatchesOf_map : (dropWatchesOf n s).map = s.map := by
  simp [dropWatchesOf]
@[simp] theorem dropWatchesOf_loans : (dropWatchesOf n s).loans = s.loans := by
  simp [dropWatchesOf]
@[simp] theorem dropWatchesOf_clock : (dropWatchesOf n s).clock = s.clock := by
  simp [dropWatchesOf]
@[simp] theorem dropWatchesOf_bays : (dropWatchesOf n s).bays = s.bays := by
  simp [dropWatchesOf]
@[simp] theorem dropWatchesOf_fences : (dropWatchesOf n s).fences = s.fences := by
  simp [dropWatchesOf]
@[simp] theorem dropWatchesOf_loader : (dropWatchesOf n s).loader = s.loader := by
  simp [dropWatchesOf]
@[simp] theorem dropWatchesOf_events : (dropWatchesOf n s).events = s.events := by
  simp [dropWatchesOf]
@[simp] theorem dropWatchesOf_choices : (dropWatchesOf n s).choices = s.choices := by
  simp [dropWatchesOf]
@[simp] theorem dropWatchesOf_pending : (dropWatchesOf n s).pending = s.pending := by
  simp [dropWatchesOf]
@[simp] theorem dropWatchesOf_port (q_ : PortId) : (dropWatchesOf n s).port q_ = s.port q_ := by
  simp only [State.port, dropWatchesOf_ports]
@[simp] theorem dropWatchesOf_node (m_ : Nat) : (dropWatchesOf n s).node m_ = s.node m_ := by
  simp only [State.node, dropWatchesOf_roster]
@[simp] theorem dropWatchesOf_extent (x_ : Nat) : (dropWatchesOf n s).extent x_ = s.extent x_ := by
  simp only [State.extent, dropWatchesOf_map]
@[simp] theorem dropWatchesOf_pair (x_ : Nat) : (dropWatchesOf n s).pair x_ = s.pair x_ := by
  simp only [State.pair, dropWatchesOf_map]
@[simp] theorem dropWatchesOf_loan (m_ : Nat) : (dropWatchesOf n s).loan m_ = s.loan m_ := by
  simp only [State.loan, dropWatchesOf_loans]
@[simp] theorem dropWatchesOf_xl (x_ : Nat) : (dropWatchesOf n s).xl x_ = s.xl x_ := by
  simp only [State.xl, dropWatchesOf_loans]
@[simp] theorem dropWatchesOf_summary (x_ : Nat) : (dropWatchesOf n s).summary x_ = s.summary x_ := by
  simp only [State.summary, State.loansOn, dropWatchesOf_loans]
@[simp] theorem dropWatchesOf_bay (m_ : Nat) : (dropWatchesOf n s).bay m_ = s.bay m_ := by
  simp only [State.bay, dropWatchesOf_bays]
@[simp] theorem dropWatchesOf_event (m_ : Nat) : (dropWatchesOf n s).event m_ = s.event m_ := by
  simp only [State.event, dropWatchesOf_events]

end dropWatchesOf_keeps

end Sys2Proof.Machine
end

