-- ==== Sys2Proof/Laws/Tab.lean ====
section
/-! SUPPORT. Laws of sparse tables: what is read after a write, and that every operation keeps the canonical form. -/

namespace Sys2Proof
variable {α : Type}

/-! ### What is read -/

@[simp] theorem Tab.look_put_same (t : Tab α) (n : Nat) (v : α) : (t.put n v).look n = some v := by
  induction t with
  | nil => simp [Tab.put, Tab.look]
  | cons x t ih =>
    simp only [Tab.put]
    split
    · simp [Tab.look]
    · split <;> simp_all [Tab.look]

theorem Tab.look_put_ne (t : Tab α) {n m : Nat} (v : α) (h : m ≠ n) : (t.put n v).look m = t.look m := by
  induction t with
  | nil => simp [Tab.put, Tab.look, Ne.symm h]
  | cons x t ih =>
    simp only [Tab.put]
    split
    · simp [Tab.look, Ne.symm h]
    · split
      · next h' => simp [Tab.look, h', Ne.symm h]
      · simp [Tab.look, ih]

theorem Tab.look_filter_none (t : Tab α) (n : Nat) (p : Nat × α → Bool) (h : t.look n = none) :
    Tab.look (t.filter p) n = none := by
  induction t with
  | nil => rfl
  | cons x t ih =>
    simp only [Tab.look] at h
    split at h
    · cases h
    · simp only [List.filter]; split <;> simp_all [Tab.look]

@[simp] theorem Tab.look_drop_same (t : Tab α) (n : Nat) : (t.drop n).look n = none := by
  induction t with
  | nil => rfl
  | cons x t ih => by_cases h : x.1 = n <;> simp_all [Tab.drop, Tab.look, List.filter]

theorem Tab.look_drop_ne (t : Tab α) {n m : Nat} (h : m ≠ n) : (t.drop n).look m = t.look m := by
  induction t with
  | nil => rfl
  | cons x t ih =>
    by_cases hx : x.1 = n
    · have hm : x.1 ≠ m := fun e => h (e.symm.trans hx)
      simp_all [Tab.drop, Tab.look, List.filter]
    · simp_all [Tab.drop, Tab.look, List.filter]

@[simp] theorem Tab.val_store_same [DecidableEq α] (d : α) (t : Tab α) (n : Nat) (v : α) :
    Tab.val d (t.store d n v) n = v := by
  by_cases h : v = d <;> simp [Tab.val, Tab.store, h]

theorem Tab.val_store_ne [DecidableEq α] (d : α) (t : Tab α) {n m : Nat} (v : α) (h : m ≠ n) :
    Tab.val d (t.store d n v) m = Tab.val d t m := by
  by_cases hv : v = d <;> simp [Tab.val, Tab.store, hv, Tab.look_put_ne, Tab.look_drop_ne, h]

theorem Tab.val_store [DecidableEq α] (d : α) (t : Tab α) (n m : Nat) (v : α) :
    Tab.val d (t.store d n v) m = if m = n then v else Tab.val d t m := by
  by_cases h : m = n
  · subst h; simp
  · simp [h, Tab.val_store_ne]

theorem Tab.look_mapVals (f : α → α) (t : Tab α) (n : Nat) : (t.mapVals f).look n = (t.look n).map f := by
  induction t with
  | nil => rfl
  | cons x t ih => by_cases h : x.1 = n <;> simp_all [Tab.mapVals, Tab.look]

theorem Tab.mem_of_look {t : Tab α} {n : Nat} {v : α} (h : t.look n = some v) : (n, v) ∈ t := by
  induction t with
  | nil => simp [Tab.look] at h
  | cons x t ih =>
    simp only [Tab.look] at h
    split at h
    · next hx => cases h; cases x; simp_all
    · simp [ih h]

theorem Tab.mem_put {t : Tab α} {n : Nat} {v : α} {x : Nat × α} (h : x ∈ t.put n v) : x = (n, v) ∨ x ∈ t := by
  induction t with
  | nil => simp_all [Tab.put]
  | cons y t ih =>
    simp only [Tab.put] at h
    split at h
    · simpa using h
    · split at h
      · rcases List.mem_cons.1 h with h | h <;> simp [h]
      · rcases List.mem_cons.1 h with h | h
        · simp [h]
        · rcases ih h with h | h <;> simp [h]

theorem Tab.mem_drop {t : Tab α} {n : Nat} {x : Nat × α} (h : x ∈ t.drop n) : x ∈ t :=
  (List.mem_filter.1 h).1

theorem Tab.mem_store [DecidableEq α] {d : α} {t : Tab α} {n : Nat} {v : α} {x : Nat × α}
    (h : x ∈ t.store d n v) : x = (n, v) ∨ x ∈ t := by
  unfold Tab.store at h
  split at h
  · exact .inr (Tab.mem_drop h)
  · exact Tab.mem_put h

/-! ### Rising keys -/

theorem Tab.rising_iff (t : Tab α) : t.rising = true ↔ t.Pairwise (fun a b => a.1 < b.1) := by
  induction t with
  | nil => simp [Tab.rising]
  | cons x t ih =>
    cases t with
    | nil => simp [Tab.rising]
    | cons y t =>
      simp only [Tab.rising, Bool.and_eq_true, decide_eq_true_eq, ih]
      constructor
      · rintro ⟨hxy, hp⟩
        refine List.pairwise_cons.2 ⟨?_, hp⟩
        intro z hz
        rcases List.mem_cons.1 hz with rfl | hz
        · exact hxy
        · exact Nat.lt_trans hxy ((List.pairwise_cons.1 hp).1 z hz)
      · intro hp
        exact ⟨(List.pairwise_cons.1 hp).1 y (by simp), (List.pairwise_cons.1 hp).2⟩

theorem Tab.rising_filter {t : Tab α} (p : Nat × α → Bool) (h : t.rising = true) :
    Tab.rising (t.filter p) = true :=
  (Tab.rising_iff _).2 (((Tab.rising_iff t).1 h).sublist List.filter_sublist)

theorem Tab.rising_drop {t : Tab α} (n : Nat) (h : t.rising = true) : (t.drop n).rising = true :=
  Tab.rising_filter _ h

theorem Tab.rising_put {t : Tab α} (n : Nat) (v : α) (h : t.rising = true) : (t.put n v).rising = true := by
  rw [Tab.rising_iff] at h ⊢
  induction t with
  | nil => simp [Tab.put]
  | cons x t ih =>
    have ⟨hx, ht⟩ := List.pairwise_cons.1 h
    simp only [Tab.put]
    split
    · next hn =>
      refine List.pairwise_cons.2 ⟨fun y hy => ?_, h⟩
      rcases List.mem_cons.1 hy with rfl | hy
      · exact hn
      · exact Nat.lt_trans hn (hx y hy)
    · split
      · next hk => exact List.pairwise_cons.2 ⟨fun y hy => hk ▸ hx y hy, ht⟩
      · next hlt hne =>
        refine List.pairwise_cons.2 ⟨fun y hy => ?_, ih ht⟩
        rcases Tab.mem_put hy with rfl | hy
        · show x.1 < n
          omega
        · exact hx y hy

theorem Tab.rising_mapVals {t : Tab α} (f : α → α) (h : t.rising = true) : (t.mapVals f).rising = true := by
  rw [Tab.rising_iff] at h ⊢
  exact List.pairwise_map.2 h

theorem Tab.rising_store [DecidableEq α] {d : α} {t : Tab α} (n : Nat) (v : α) (h : t.rising = true) :
    (t.store d n v).rising = true := by
  unfold Tab.store; split
  · exact Tab.rising_drop n h
  · exact Tab.rising_put n v h

/-- Every store keeps the canonical form of a table with a default. -/
theorem Tab.canonical_store [DecidableEq α] {d : α} {t : Tab α} (n : Nat) (v : α)
    (h : t.canonical d = true) : (t.store d n v).canonical d = true := by
  simp only [Tab.canonical, Bool.and_eq_true, List.all_eq_true, decide_eq_true_eq] at h ⊢
  refine ⟨Tab.rising_store n v h.1, fun x hx => ?_⟩
  unfold Tab.store at hx
  split at hx
  · exact h.2 x (Tab.mem_drop hx)
  · next hv =>
    rcases Tab.mem_put hx with rfl | hx
    · exact hv
    · exact h.2 x hx

theorem Tab.canonical_mapVals [DecidableEq α] {d : α} {t : Tab α} (f : α → α) (hf : ∀ v, v ≠ d → f v ≠ d)
    (h : t.canonical d = true) : (t.mapVals f).canonical d = true := by
  simp only [Tab.canonical, Bool.and_eq_true, List.all_eq_true, decide_eq_true_eq] at h ⊢
  refine ⟨Tab.rising_mapVals f h.1, fun x hx => ?_⟩
  obtain ⟨y, hy, rfl⟩ := List.mem_map.1 hx
  exact hf _ (h.2 y hy)

/-- In a table with rising keys each entry is what its key reads as. -/
theorem Tab.look_of_mem {t : Tab α} {n : Nat} {v : α} (hr : t.rising = true) (h : (n, v) ∈ t) :
    t.look n = some v := by
  rw [Tab.rising_iff] at hr
  induction t with
  | nil => simp at h
  | cons x t ih =>
    have ⟨hx, ht⟩ := List.pairwise_cons.1 hr
    rcases List.mem_cons.1 h with rfl | h
    · simp [Tab.look]
    · have : x.1 ≠ n := Nat.ne_of_lt (hx _ h)
      simp [Tab.look, this, ih ht h]

/-! ### Sizes -/

theorem Tab.length_put_le (t : Tab α) (n : Nat) (v : α) : (t.put n v).length ≤ t.length + 1 := by
  induction t with
  | nil => simp [Tab.put]
  | cons x t ih => simp only [Tab.put]; split <;> (try split) <;> simp_all

theorem Tab.length_put_of_look {t : Tab α} {n : Nat} (v : α) (hr : t.rising = true)
    (h : (t.look n).isSome = true) : (t.put n v).length = t.length := by
  rw [Tab.rising_iff] at hr
  induction t with
  | nil => simp [Tab.look] at h
  | cons x t ih =>
    have ⟨hx, ht⟩ := List.pairwise_cons.1 hr
    simp only [Tab.look] at h
    simp only [Tab.put]
    by_cases hk : x.1 = n
    · simp [hk]
    · rw [if_neg hk] at h
      obtain ⟨w, hw⟩ := Option.isSome_iff_exists.1 h
      have := hx _ (Tab.mem_of_look hw)
      have hlt : ¬ n < x.1 := Nat.not_lt.2 (Nat.le_of_lt this)
      simp [hk, hlt, ih ht h]

theorem Tab.length_drop_le (t : Tab α) (n : Nat) : (t.drop n).length ≤ t.length := List.length_filter_le _ _

end Sys2Proof
end

