-- ==== Sys2Proof/Laws/Legal.lean ====
section
/-! SUPPORT. What the walk of the check says (R128): a walk that ends at no record is of a legal map (R2), and one that
ends at a record ends there by the first of its tests that fails. -/

namespace Sys2Proof.Machine

theorem mem_overlapped {earlier : Tab ExtentRec} {r : ExtentRec} {d : Nat} :
    d ∈ overlapped earlier r ↔
      ∃ q, (d, q) ∈ earlier ∧ q.bay = r.bay ∧ q.base < r.base + 2 ^ r.k ∧ r.base < q.base + 2 ^ q.k := by
  simp only [overlapped, List.mem_map, List.mem_filter, ExtentRec.overlaps, Bool.and_eq_true, decide_eq_true_eq]
  simp only [ExtentRec.size]
  constructor
  · rintro ⟨⟨_, q⟩, ⟨hm, ⟨hb, h1⟩, h2⟩, rfl⟩
    exact ⟨q, hm, hb, h1, h2⟩
  · rintro ⟨q, hm, hb, h1, h2⟩
    exact ⟨(d, q), ⟨hm, ⟨hb, h1⟩, h2⟩, rfl⟩

/-- A record fails the test of this number, the earlier records being listed: `TestFails` in the middle of a walk. -/
def FailsAfter (earlier : Tab ExtentRec) (r : ExtentRec) : Nat → Prop
  | 1 => 23 < r.bay
  | 2 => 26 < r.k
  | 3 => r.base % 2 ^ r.k ≠ 0
  | 4 => 2 ^ 36 - 1 < r.base + 2 ^ r.k - 1
  | 5 => 3 < r.ceiling
  | 6 => overlapped earlier r ≠ []
  | _ => False

theorem checkRecord_none {earlier : Tab ExtentRec} {r : ExtentRec} (h : checkRecord earlier r = none) (w : Nat) :
    ¬ FailsAfter earlier r w := by
  unfold checkRecord at h
  by_cases h1 : 23 < r.bay
  · rw [if_pos h1] at h; cases h
  rw [if_neg h1] at h
  by_cases h2 : Config.maxExponent < r.k
  · rw [if_pos h2] at h; cases h
  rw [if_neg h2] at h
  by_cases h3 : r.base % 2 ^ r.k ≠ 0
  · rw [if_pos h3] at h; cases h
  rw [if_neg h3] at h
  by_cases h4 : Config.blockSpace < r.base + 2 ^ r.k
  · rw [if_pos h4] at h; cases h
  rw [if_neg h4] at h
  by_cases h5 : 3 < r.ceiling
  · rw [if_pos h5] at h; cases h
  rw [if_neg h5] at h
  by_cases h6 : overlapped earlier r = []
  · match w with
    | 1 => exact h1
    | 2 => exact h2
    | 3 => exact h3
    | 4 => exact fun c => h4 (show 2 ^ 36 < _ by simp only [FailsAfter] at c; omega)
    | 5 => exact h5
    | 6 => exact fun c => c h6
    | 0 | _ + 7 => exact id
  · rw [if_pos (by simp [h6])] at h; cases h

theorem checkRecord_some {earlier : Tab ExtentRec} {r : ExtentRec} {why : CheckReason}
    (h : checkRecord earlier r = some why) :
    FailsAfter earlier r why.code ∧ ∀ w, w < why.code → ¬ FailsAfter earlier r w := by
  unfold checkRecord at h
  have low : ∀ {n : Nat}, (∀ w, w < n → ¬ FailsAfter earlier r w) → ¬ FailsAfter earlier r n →
      ∀ w, w < n + 1 → ¬ FailsAfter earlier r w := fun a b w hw => by
    rcases Nat.lt_succ_iff_lt_or_eq.1 hw with h | h
    · exact a w h
    · exact h ▸ b
  have l1 : ∀ w, w < 1 → ¬ FailsAfter earlier r w := fun w hw => by
    obtain rfl : w = 0 := by omega
    exact id
  by_cases h1 : 23 < r.bay
  · rw [if_pos h1] at h; cases h; exact ⟨h1, l1⟩
  rw [if_neg h1] at h
  have l2 := low l1 h1
  by_cases h2 : Config.maxExponent < r.k
  · rw [if_pos h2] at h; cases h; exact ⟨h2, l2⟩
  rw [if_neg h2] at h
  have l3 := low l2 h2
  by_cases h3 : r.base % 2 ^ r.k ≠ 0
  · rw [if_pos h3] at h; cases h; exact ⟨h3, l3⟩
  rw [if_neg h3] at h
  have l4 := low l3 h3
  by_cases h4 : Config.blockSpace < r.base + 2 ^ r.k
  · rw [if_pos h4] at h; cases h
    exact ⟨show 2 ^ 36 - 1 < r.base + 2 ^ r.k - 1 by
      have : 2 ^ 36 < r.base + 2 ^ r.k := h4
      omega, l4⟩
  rw [if_neg h4] at h
  have l5 := low l4 (fun c => h4 (show 2 ^ 36 < _ by simp only [FailsAfter] at c; omega))
  by_cases h5 : 3 < r.ceiling
  · rw [if_pos h5] at h; cases h; exact ⟨h5, l5⟩
  rw [if_neg h5] at h
  by_cases h6 : overlapped earlier r = []
  · rw [if_neg (by simp [h6])] at h; cases h
  · rw [if_pos (by simp [h6])] at h; cases h; exact ⟨h6, low l5 h5⟩

/-- Where the earlier records are those below `e` in a map, the two say the same of its record `e`. -/
theorem testFails_iff {m earlier : Tab ExtentRec} {e : Nat} {r : ExtentRec}
    (he : ∀ d q, (d, q) ∈ earlier ↔ d < e ∧ m.look d = some q) (w : Nat) :
    TestFails m e r w ↔ FailsAfter earlier r w := by
  match w with
  | 0 | 1 | 2 | 3 | 4 | 5 | _ + 7 => exact Iff.rfl
  | 6 =>
    constructor
    · rintro ⟨d, q, h1, h2, h3⟩
      exact List.ne_nil_of_mem (mem_overlapped.2 ⟨q, (he d q).2 ⟨h1, h2⟩, h3⟩)
    · intro h
      obtain ⟨d, hd⟩ := List.exists_mem_of_ne_nil _ h
      obtain ⟨q, hm, h3⟩ := mem_overlapped.1 hd
      exact ⟨d, q, ((he d q).1 hm).1, ((he d q).1 hm).2, h3⟩

/-- The walk of the rest of a map with rising keys, its earlier records passed. -/
theorem walk_spec {earlier rest : Tab ExtentRec} (rising : (earlier ++ rest).Pairwise (fun a b => a.1 < b.1))
    (passed : ∀ d q w, (d, q) ∈ earlier → ¬ TestFails (earlier ++ rest) d q w) :
    (checkWalk earlier rest = none → ∀ e r w, Tab.look (earlier ++ rest) e = some r →
        ¬ TestFails (earlier ++ rest) e r w)
    ∧ ∀ x, checkWalk earlier rest = some x → WalkEnds (earlier ++ rest) x.extent x.reason.code
        ∧ (x.reason ≠ .overlap → x.lower = [])
        ∧ (x.reason = .overlap → x.lower ≠ [] ∧ ∃ r, Tab.look (earlier ++ rest) x.extent = some r ∧
          ∀ d, d ∈ x.lower ↔ d < x.extent ∧ ∃ q, Tab.look (earlier ++ rest) d = some q ∧ q.bay = r.bay
            ∧ q.base < r.base + 2 ^ r.k ∧ r.base < q.base + 2 ^ q.k) := by
  induction rest generalizing earlier with
  | nil =>
    refine ⟨fun _ e r w h => passed e r w ?_, fun x h => by simp [checkWalk] at h⟩
    simpa using Tab.mem_of_look h
  | cons y rest ih =>
    obtain ⟨e, r⟩ := y
    have rise : (earlier ++ (e, r) :: rest : Tab ExtentRec).rising = true := (Tab.rising_iff _).2 rising
    have eq : earlier ++ (e, r) :: rest = (earlier ++ [(e, r)]) ++ rest := by simp
    have lookE : Tab.look (earlier ++ (e, r) :: rest) e = some r := Tab.look_of_mem rise (by simp)
    have he : ∀ d q, (d, q) ∈ earlier ↔ d < e ∧ Tab.look (earlier ++ (e, r) :: rest) d = some q := by
      intro d q
      constructor
      · intro h
        exact ⟨(List.pairwise_append.1 rising).2.2 _ h (e, r) (by simp), Tab.look_of_mem rise (by simp [h])⟩
      · rintro ⟨hlt, h⟩
        have h := Tab.mem_of_look h
        rcases List.mem_append.1 h with h | h
        · exact h
        · rcases List.mem_cons.1 h with h | h
          · cases h; omega
          · have := (List.pairwise_cons.1 (List.pairwise_append.1 rising).2.1).1 _ h
            simp only at this; omega
    simp only [checkWalk]
    have below : ∀ d q w, d < e → Tab.look (earlier ++ (e, r) :: rest) d = some q →
        ¬ TestFails (earlier ++ (e, r) :: rest) d q w := fun d q w hd hq => passed d q w ((he d q).2 ⟨hd, hq⟩)
    have ends : ∀ why, checkRecord earlier r = some why → WalkEnds (earlier ++ (e, r) :: rest) e why.code :=
      fun why h => ⟨r, lookE, (testFails_iff he _).2 (checkRecord_some h).1,
        fun w hw => fun c => (checkRecord_some h).2 w hw ((testFails_iff he _).1 c), below⟩
    split
    · next h =>
      refine ⟨fun c => by contradiction, fun x hx => ?_⟩
      cases hx
      refine ⟨ends _ h, fun c => absurd rfl c, fun _ => ⟨(checkRecord_some h).1, r, lookE, fun d => ?_⟩⟩
      rw [mem_overlapped]
      simp only [he]
      constructor
      · rintro ⟨q, ⟨h1, h2⟩, h3⟩
        exact ⟨h1, q, h2, h3⟩
      · rintro ⟨h1, q, h2, h3⟩
        exact ⟨q, ⟨h1, h2⟩, h3⟩
    · next why h hne =>
      refine ⟨fun c => by contradiction, fun x hx => ?_⟩
      cases hx
      exact ⟨ends _ hne, fun _ => rfl, fun c => absurd c (by simpa using h)⟩
    · next h =>
      rw [eq] at rising lookE he ⊢
      exact ih rising (fun d q w hm => by
        rcases List.mem_append.1 hm with hm | hm
        · rw [← eq]; exact passed d q w hm
        · obtain ⟨rfl, rfl⟩ : d = e ∧ q = r := by simpa using hm
          exact fun c => checkRecord_none h w ((testFails_iff he w).1 c))

/-- The records of a walk that ends at none pass the tests 1 to 5, and those on one bay are apart. -/
theorem passed_of_checkWalk {earlier rest : Tab ExtentRec} (h : checkWalk earlier rest = none) :
    (∀ x ∈ rest, (∀ w, w < 6 → ¬ FailsAfter earlier x.2 w) ∧ ∀ y ∈ earlier, y.2.bay = x.2.bay →
        x.2.base + 2 ^ x.2.k ≤ y.2.base ∨ y.2.base + 2 ^ y.2.k ≤ x.2.base)
    ∧ rest.Pairwise (fun x y => x.2.bay = y.2.bay →
        y.2.base + 2 ^ y.2.k ≤ x.2.base ∨ x.2.base + 2 ^ x.2.k ≤ y.2.base) := by
  induction rest generalizing earlier with
  | nil => exact ⟨by simp, .nil⟩
  | cons x rest ih =>
    obtain ⟨e, r⟩ := x
    simp only [checkWalk] at h
    split at h
    · contradiction
    · contradiction
    · next hr =>
      have ⟨all, apart⟩ := ih h
      have none : overlapped earlier r = [] := by
        by_cases c : overlapped earlier r = []
        · exact c
        · exact absurd c (checkRecord_none hr 6)
      refine ⟨fun x hx => ?_, List.pairwise_cons.2 ⟨fun y hy => (all y hy).2 (e, r) (by simp), apart⟩⟩
      rcases List.mem_cons.1 hx with rfl | hx
      · refine ⟨fun w _ => checkRecord_none hr w, fun y hy hb => ?_⟩
        by_cases c : r.base + 2 ^ r.k ≤ y.2.base
        · exact .inl c
        · refine .inr (Nat.le_of_not_lt fun c' => ?_)
          have : y.1 ∈ overlapped earlier r := mem_overlapped.2 ⟨y.2, hy, hb, Nat.lt_of_not_le c, c'⟩
          simp [none] at this
      · refine ⟨fun w hw => ?_, fun y hy => (all x hx).2 y (by simp [hy])⟩
        have := (all x hx).1 w hw
        match w, hw with
        | 0, _ | 1, _ | 2, _ | 3, _ | 4, _ | 5, _ => exact this

/-- A map whose walk ends at no record is legal. -/
theorem legalMap_of_checkWalk {m : Tab ExtentRec} (h : checkWalk [] m = none) : LegalMap m := by
  have ⟨all, apart⟩ := passed_of_checkWalk h
  refine ⟨fun e r hr => ?_, fun e d r q hne hr hq hb => ?_⟩
  · have p := (all _ (Tab.mem_of_look hr)).1
    exact ⟨Nat.le_of_not_lt (p 1 (by omega)), Nat.le_of_not_lt (p 2 (by omega)), Nat.eq_zero_of_not_pos
      (fun c => p 3 (by omega) (Nat.ne_of_gt c)), by have := p 4 (by omega); simp only [FailsAfter] at this; omega,
      Nat.le_of_not_lt (p 5 (by omega))⟩
  · let R := fun x y : Nat × ExtentRec => x.1 ≠ y.1 → x.2.bay = y.2.bay →
      x.2.base + 2 ^ x.2.k ≤ y.2.base ∨ y.2.base + 2 ^ y.2.k ≤ x.2.base
    have two : ∀ x ∈ m, ∀ y ∈ m, R x y := List.Pairwise.forall_of_forall_of_flip (R := R)
      (fun x _ c => absurd rfl c) (apart.imp fun h _ hb => (h hb).symm) (apart.imp fun h _ hb => h hb.symm)
    exact two _ (Tab.mem_of_look hr) _ (Tab.mem_of_look hq) hne hb

/-- A legal map's walk ends at no record. -/
theorem checkWalk_of_legalMap {m : Tab ExtentRec} (rising : m.rising = true) (h : LegalMap m) :
    checkWalk [] m = none := by
  match hw : checkWalk [] m with
  | none => rfl
  | some x =>
    obtain ⟨⟨r, hr, hf, _⟩, _⟩ := (walk_spec (earlier := []) ((Tab.rising_iff m).1 rising) (by simp)).2 x hw
    simp only [List.nil_append] at hr hf
    obtain ⟨h1, h2, h3, h4, h5⟩ := h.1 _ _ hr
    unfold TestFails at hf
    split at hf <;> first | omega | exact absurd h3 hf | skip
    · obtain ⟨d, q, hlt, hq, hb, a, b⟩ := hf
      have := h.2 d x.extent q r (by omega) hq hr hb
      omega
    · exact hf.elim

end Sys2Proof.Machine
end

