-- ==== Sys2Proof/Laws/Moves.lean ====
section
/-! SUPPORT. All that a command can do, said once: `Move` is one update of the state with the condition under
which the model makes it, and `Moves` a chain of them. Laws/MovesOf.lean shows that every shared operation and
every command is such a chain, so an invariant that each `Move` keeps is kept by every command. -/

namespace Sys2Proof.Machine

/-- The Watch List with every record on an extent FIRED (R95). -/
def firedOn (e : Nat) (t : Tab Watch) : Tab Watch :=
  t.mapVals (fun w => if w.extent = e then { w with state := .fired } else w)

/-- What becomes of a loan record, but for grants and conversions: nothing; its slot is FREE; a FREE one owes no
release reply; or a live one stays live on its extent, in its mode or SHARED. -/
inductive LoanKept (old new : LoanRec) : Prop
  | same (h : new = old)
  | freed (i : BitVec 4) (h : new = LoanRec.free i)
  | owesNone (free : old.state = .free) (h : new = { old with releaseOwed := none })
  | live (h : old.state ≠ .free) (h' : new.state ≠ .free) (extent : new.extent = old.extent)
      (mode : new.mode = old.mode ∨ new.mode = .shared)

/-- One update of the state, with the condition under which it is made. -/
inductive Move : State → State → Prop
  | choices (s : State) (c : Nat) : Move s { s with choices := c }
  | pushReply (s : State) (p : PortId) (x : Ready) (up : (s.port p).up = true) (isReply : x.frame.notice = false) :
      Move s (pushReady p x s)
  | pushNotice (s : State) (p : PortId) (f : OutFrame) (room : s.noticeFree p = true) (isNotice : f.notice = true) :
      Move s (pushNotice p f s)
  | reserve (s : State) (p : PortId) (up : (s.port p).up = true) (room : (s.port p).reservations < Config.replyPlaces) :
      Move s (takeReservation p s)
  | replyLeaves (s : State) (p : PortId) (x : Ready) (rest : List Ready) (up : (s.port p).up = true)
      (head : (s.port p).egress = x :: rest) (isReply : x.frame.notice = false) :
      Move s (setPort p { s.port p with egress := rest, reservations := (s.port p).reservations - 1 } s)
  | noticeLeaves (s : State) (p : PortId) (x : Ready) (rest : List Ready) (up : (s.port p).up = true)
      (head : (s.port p).egress = x :: rest) (isNotice : x.frame.notice = true) :
      Move s (setPort p { s.port p with egress := rest, notices := (s.port p).notices - 1 } s)
  | linkDown (s : State) (p : PortId) : Move s (setPort p ⟨false, (s.port p).round + 1, 0, 0, []⟩ s)
  | linkUp (s : State) (p : PortId) : Move s (setPort p ⟨true, (s.port p).round, 0, 0, []⟩ s)
  | node (s : State) (n : Nat) (r r' : NodeRec) (here : s.node n = some r) (role : r'.role = r.role) :
      Move s (setNode n r' s)
  | enroll (s : State) (n : Nat) (r : NodeRec) (new : s.node n = none) (room : s.roster.length < Config.rosterSize)
      (role : r.role = .render) : Move s (setNode n r s)
  | moveRole (s : State) (n : Nat) (r r' : NodeRec) (here : s.node n = some r) (role : r'.role = .authority) :
      Move s (setRoster ((withoutAuthority s.roster).put n r') s)
  | remove (s : State) (n : Nat) (r : NodeRec) (here : s.node n = some r) (role : r.role ≠ .authority) :
      Move s (setRoster (s.roster.drop n) s)
  | counts (s : State) : Move s (resetCounts s)
  | publish (s : State) (e : Nat) (v : Pair) : Move s (setWatches (firedOn e s.watches) (setPair e v s))
  | mark (s : State) (e : Nat) (v : Pair) (same : v.gen = (s.pair e).gen) : Move s (setPair e v s)
  | remap (s : State) (e : Nat) :
      Move s (setWatches (s.watches.filter (fun x => decide (x.2.extent ≠ e))) (setPair e Pair.zero s))
  | swapIn (s : State) (legal : s.loader.state = .draining ∨ checkWalk [] s.loader.staging = none) :
      Move s (setRecords s.loader.staging s)
  | grant (s : State) (slot : Nat) (r : LoanRec) (place : slot < Config.loanSlots) (free : (s.loan slot).state = .free)
      (held : r.state = .held) (alone : r.mode = .sole → s.summary r.extent = .idle)
      (room : s.summary r.extent ≠ .sole) :
      Move s (setLoan slot r s)
  | convert (s : State) (e : Nat) (h : Handle) (only : s.isOnlyLoan e h = true) : Move s (makeSole h.slot s)
  | loan (s : State) (slot : Nat) (r : LoanRec)
      (kept : LoanKept (s.loan slot) r) : Move s (setLoan slot r s)
  | age (s : State) (t : Taps) : Move s (takeUnits t s)
  | joinQueue (s : State) (e : Nat) (q : List ClaimEntry) (room : s.poolUsed < Config.poolSize)
      (one : q.length = (s.xl e).queue.length + 1) : Move s (updXl e (fun x => { x with queue := q }) s)
  | leaveQueue (s : State) (e : Nat) (q : List ClaimEntry) (fewer : q.length ≤ (s.xl e).queue.length) :
      Move s (updXl e (fun x => { x with queue := q }) s)
  | drainMark (s : State) (e : Nat) (b : Bool) : Move s (updXl e (fun x => { x with drainMark := b }) s)
  | openReads (s : State) (e n : Nat) : Move s (updXl e (fun x => { x with openReads := n }) s)
  | tableWait (s : State) (l : List Nat) : Move s (setTableWait l s)
  | clock (s : State) (c : Clock) : Move s (setClock c s)
  | bay (s : State) (b : Nat) (v : Bay)
      (room : v.queue.length ≤ (s.bay b).queue.length ∨ v.queue.length ≤ Config.bayQueueSize) : Move s (setBay b v s)
  | tickBays (s : State) : Move s { s with bays := s.bays.map Bay.ticked }
  | latch (s : State) (e n : Nat) (st : WatchState)
      (room : (s.watches.look (watchKey e n)).isSome = true ∨ s.watches.length < Config.watchSize) :
      Move s (latch e n st s)
  | unwatch (s : State) (p : Nat × Watch → Bool) : Move s (setWatches (s.watches.filter p) s)
  | fences (s : State) (v : Vector Fence 8) : Move s (setFences v s)
  | hold (s : State) (i : Nat) (h : Held) (place : i < Config.heldSize) : Move s (setHeld (s.fences.held.put i h) s)
  | unhold (s : State) (i : Nat) : Move s (setHeld (s.fences.held.drop i) s)
  | ageHeld (s : State) (f : Held → Held) : Move s (setHeld (s.fences.held.mapVals f) s)
  | loader (s : State) (l : Loader)
      (staged : l.staging = s.loader.staging ∨ l.staging = s.map.records ∨ l.staging = []
        ∨ (∃ e r, e < 4096 ∧ l.staging = s.loader.staging.put e r) ∨ (∃ e, l.staging = s.loader.staging.drop e))
      (drains : l.state = .draining →
        (s.loader.state = .draining ∧ l.staging = s.loader.staging) ∨ checkWalk [] l.staging = none) :
      Move s (setLoader l s)
  | flag (s : State) (k : Nat) (d : Detail) (clear : (s.event k).flag = false) :
      Move s (setEvent k { s.event k with flag := true, noticed := false, detail := some d } s)
  | noticed (s : State) (k : Nat) (q : (s.event k).qualifies s.events.mask = true) :
      Move s (setEvent k { s.event k with noticed := true } s)
  | levels (s : State) (f : Nat → Nat) (legal : ∀ i, f i ≤ 3) :
      Move s (setEvents { s.events with
        records := Vector.ofFn (fun i => { s.event i.val with level := f i.val }) } s)
  | maskLevel (s : State) (m : Nat) (legal : m ≤ 3) : Move s (setEvents { s.events with mask := m } s)
  | clearEvents (s : State) (kinds : BitVec 16) :
      Move s (setEvents { s.events with
        records := Vector.ofFn (fun i =>
          if kinds.getLsbD i.val then (s.event i.val).cleared else s.event i.val) } s)
  | fullReset (s : State) : Move s { State.reset with choices := s.choices, pending := s.pending }

/-- A chain of moves. -/
inductive Moves : State → State → Prop
  | refl (s : State) : Moves s s
  | step {s t u : State} (h : Moves s t) (m : Move t u) : Moves s u

namespace Moves

theorem one {s t : State} (m : Move s t) : Moves s t := .step (.refl s) m

theorem trans {s t u : State} (h : Moves s t) (k : Moves t u) : Moves s u := by
  induction k with
  | refl => exact h
  | step _ m ih => exact .step ih m

/-- What holds before a chain and is kept by each move holds after it. -/
theorem keep {P : State → Prop} (hP : ∀ s t, Move s t → P s → P t) {s t : State} (h : Moves s t) (hs : P s) :
    P t := by
  induction h with
  | refl => exact hs
  | step _ m ih => exact hP _ _ m ih

/-- An operation that is a chain from every state, after a chain. -/
theorem andThen {f : State → State} {s t : State} (h : Moves s t) (hf : ∀ u, Moves u (f u)) : Moves s (f t) :=
  h.trans (hf t)

theorem onlyIf {c : Bool} {f : State → State} {s : State} (hf : c = true → Moves s (f s)) :
    Moves s (onlyIf c f s) := by
  unfold Machine.onlyIf
  split
  · next h => exact hf h
  · exact .refl s

theorem foldl {α : Type} (xs : List α) (f : α → State → State) (hf : ∀ x s, Moves s (f x s)) (s : State) :
    Moves s (xs.foldl (fun s x => f x s) s) := by
  induction xs generalizing s with
  | nil => exact .refl s
  | cons x xs ih => exact (hf x s).trans (ih _)

theorem forEach {α : Type} {xs : List α} {f : α → State → State} (hf : ∀ x s, Moves s (f x s)) (s : State) :
    Moves s (forEach xs f s) := foldl xs f hf s

theorem forEachFree {α : Type} {xs : List α} {f : α → State → State} (hf : ∀ x s, Moves s (f x s)) (s : State) :
    Moves s (forEachFree xs f s) :=
  (one (.choices s _)).trans (foldl _ f hf _)

/-- A chain by a function applied again and again. -/
theorem repeated {f : State → State} (hf : ∀ s, Moves s (f s)) (n : Nat) (s : State) : Moves s (Nat.repeat f n s) := by
  induction n with
  | zero => exact .refl s
  | succ n ih => exact ih.trans (hf _)

end Moves

end Sys2Proof.Machine
end

