-- ==== Sys2Proof/Laws/Reads.lean ====
section
/-! SUPPORT. What a reader of one key shows after an update at that key or at another. -/

namespace Sys2Proof.Machine

theorem port_setPort (p q : PortId) (v : Port) (s : State) :
    (setPort p v s).port q = if q = p then v else s.port q := by
  simp only [State.port, setPort_ports]
  by_cases h : q = p
  · subst h; simp
  · rw [if_neg h]
    have : p.val ≠ q.val := fun e => h (Fin.ext e.symm)
    exact Vector.getElem_set_ne (by omega) (by omega) this

@[simp] theorem port_setPort_same (p : PortId) (v : Port) (s : State) : (setPort p v s).port p = v := by
  simp [port_setPort]

theorem node_setNode (n m : Nat) (r : NodeRec) (s : State) :
    (setNode n r s).node m = if m = n then some r else s.node m := by
  simp only [State.node, setNode_roster]
  by_cases h : m = n
  · subst h; simp
  · rw [if_neg h, Tab.look_put_ne _ _ h]

@[simp] theorem node_setNode_same (n : Nat) (r : NodeRec) (s : State) : (setNode n r s).node n = some r := by
  simp [node_setNode]

theorem node_updNode (n m : Nat) (f : NodeRec → NodeRec) (s : State) :
    (updNode n f s).node m = if m = n then (s.node n).map f else s.node m := by
  unfold updNode
  split
  · next r h => rw [node_setNode, h]; rfl
  · next h =>
    split
    · next e => subst e; rw [h]; rfl
    · rfl

theorem loan_setLoan (a b : Nat) (r : LoanRec) (s : State) :
    (setLoan a r s).loan b = if b = a then r else s.loan b := by
  simp only [State.loan, setLoan_loans, Tab.val_store]

@[simp] theorem loan_setLoan_same (a : Nat) (r : LoanRec) (s : State) : (setLoan a r s).loan a = r := by
  simp [loan_setLoan]

theorem loan_updLoan (a b : Nat) (f : LoanRec → LoanRec) (s : State) :
    (updLoan a f s).loan b = if b = a then f (s.loan a) else s.loan b := loan_setLoan a b _ s

@[simp] theorem loan_updLoan_same (a : Nat) (f : LoanRec → LoanRec) (s : State) :
    (updLoan a f s).loan a = f (s.loan a) := loan_setLoan_same a _ s

theorem xl_setXl (a b : Nat) (v : ExtentLoans) (s : State) :
    (setXl a v s).xl b = if b = a then v else s.xl b := by
  simp only [State.xl, setXl_loans, Tab.val_store]

@[simp] theorem xl_setXl_same (a : Nat) (v : ExtentLoans) (s : State) : (setXl a v s).xl a = v := by
  simp [xl_setXl]

theorem xl_updXl (a b : Nat) (f : ExtentLoans → ExtentLoans) (s : State) :
    (updXl a f s).xl b = if b = a then f (s.xl a) else s.xl b := xl_setXl a b _ s

@[simp] theorem xl_updXl_same (a : Nat) (f : ExtentLoans → ExtentLoans) (s : State) :
    (updXl a f s).xl a = f (s.xl a) := xl_setXl_same a _ s

theorem pair_setPair (a b : Nat) (v : Pair) (s : State) :
    (setPair a v s).pair b = if b = a then v else s.pair b := by
  simp only [State.pair, setPair_map, Tab.val_store]

@[simp] theorem pair_setPair_same (a : Nat) (v : Pair) (s : State) : (setPair a v s).pair a = v := by
  simp [pair_setPair]

theorem bay_setBay (a b : Nat) (v : Bay) (s : State) (h : a < 24) :
    (setBay a v s).bay b = if b = a then v else s.bay b := by
  simp only [State.bay, setBay_bays]
  by_cases e : b = a
  · subst e; simp [h]
  · rw [if_neg e, Vector.getElem?_setIfInBounds_ne (Ne.symm e)]

theorem bay_setBay_ne (a b : Nat) (v : Bay) (s : State) (h : b ≠ a) : (setBay a v s).bay b = s.bay b := by
  simp only [State.bay, setBay_bays]
  rw [Vector.getElem?_setIfInBounds_ne (Ne.symm h)]

theorem bay_updBay (a b : Nat) (f : Bay → Bay) (s : State) (h : a < 24) :
    (updBay a f s).bay b = if b = a then f (s.bay a) else s.bay b := bay_setBay a b _ s h

theorem event_setEvent (a b : Nat) (v : EventRec) (s : State) (h : a < 16) :
    (setEvent a v s).event b = if b = a then v else s.event b := by
  simp only [State.event, setEvent_events]
  by_cases e : b = a
  · subst e; simp [h]
  · rw [if_neg e, Vector.getElem?_setIfInBounds_ne (Ne.symm e)]

theorem watch_latch (e n k : Nat) (st : WatchState) (s : State) :
    (latch e n st s).watches.look k
      = if k = watchKey e n then some ⟨n, e, (s.pair e).gen, st⟩ else s.watches.look k := by
  simp only [latch, setWatches_watches]
  by_cases h : k = watchKey e n
  · subst h; simp
  · rw [if_neg h, Tab.look_put_ne _ _ h]

theorem num_lt (k : EventKind) : k.num < 16 := by cases k <;> decide

end Sys2Proof.Machine
end

