-- ==== Sys2Proof/Laws/MovesOf.lean ====
section
/-! SUPPORT. Every shared operation and every command is a chain of `Move`s: one lemma for each operation. -/

namespace Sys2Proof.Machine

set_option Elab.async false

/-! ### Updates -/

theorem moves_updNode (n : Nat) (f : NodeRec → NodeRec) (s : State)
    (hf : ∀ r, (f r).role = r.role := by intro _; rfl) : Moves s (updNode n f s) := by
  unfold updNode
  split
  · next r h => exact .one (.node s n r (f r) h (hf r))
  · exact .refl s

theorem moves_freeTag (n t : Nat) (s : State) : Moves s (freeTag n t s) :=
  moves_updNode n _ s

theorem moves_updLoan (slot : Nat) (f : LoanRec → LoanRec) (s : State)
    (hf : LoanKept (s.loan slot) (f (s.loan slot))) : Moves s (updLoan slot f s) := .one (.loan s slot _ hf)

/-- An update of a live loan record that keeps state, extent and mode. -/
theorem moves_updLoan_keep (slot : Nat) (f : LoanRec → LoanRec) (s : State) (live : (s.loan slot).state ≠ .free)
    (h1 : (f (s.loan slot)).state = (s.loan slot).state := by rfl)
    (h2 : (f (s.loan slot)).extent = (s.loan slot).extent := by rfl)
    (h3 : (f (s.loan slot)).mode = (s.loan slot).mode := by rfl) : Moves s (updLoan slot f s) :=
  moves_updLoan slot f s (.live live (by rw [h1]; exact live) h2 (.inl h3))

theorem moves_updBay (b : Nat) (f : Bay → Bay) (s : State)
    (hf : ∀ y, (f y).queue.length ≤ y.queue.length := by intro _; exact Nat.le_refl _) : Moves s (updBay b f s) := .one (.bay s b _ (.inl (hf _)))

/-- A change of a node's record that keeps its role. -/
theorem moves_node (n : Nat) (r r' : NodeRec) (s : State) (here : s.node n = some r)
    (role : r'.role = r.role := by rfl) : Moves s (setNode n r' s) := .one (.node s n r r' here role)

/-- A change of the loader that keeps the staging map. -/
theorem moves_setLoader (l : Loader) (s : State) (h : l.staging = s.loader.staging := by rfl)
    (hd : l.state = .draining → s.loader.state = .draining := by intro h; first | exact h | cases h) :
    Moves s (setLoader l s) := .one (.loader s l (.inl h) (fun d => .inl ⟨hd d, h⟩))

/-- The loader goes back to its full-reset contents. -/
theorem moves_resetLoaderState (s : State) : Moves s (setLoader Loader.reset s) :=
  .one (.loader s Loader.reset (.inr (.inr (.inl rfl))) (by intro h; cases h))

/-- A change of the staging map by a request that is taken in OPEN alone. -/
theorem moves_stage (l : Loader) (s : State) (isOpen : s.loader.state = .opened) (kept : l.state = s.loader.state)
    (staged : l.staging = s.loader.staging ∨ l.staging = s.map.records ∨ l.staging = []
      ∨ (∃ e r, e < 4096 ∧ l.staging = s.loader.staging.put e r) ∨ (∃ e, l.staging = s.loader.staging.drop e)) :
    Moves s (setLoader l s) :=
  .one (.loader s l staged (by intro h; rw [kept, isOpen] at h; cases h))

/-! ### Event flags and notices -/

theorem moves_makeEventNotice (n : Nat) (p : PortId) (k : Nat) (s : State)
    (room : s.noticeFree p = true) (q : (s.event k).qualifies s.events.mask = true) :
    Moves s (makeEventNotice n p k s) :=
  (Moves.one (.noticed s k q)).step (.pushNotice _ p _ room rfl)

theorem qualifies_of_firstQualifying {s : State} {k : Nat} (h : s.firstQualifying = some k) :
    (s.event k).qualifies s.events.mask = true := by
  simpa using List.find?_some h

theorem moves_noticeOnce (s : State) : Moves s (noticeOnce s) := by
  unfold noticeOnce
  split
  · split
    · split
      · next room =>
        split
        · next h => exact moves_makeEventNotice _ _ _ s room (qualifies_of_firstQualifying h)
        · exact .refl s
      · exact .refl s
    · exact .refl s
  · exact .refl s

theorem moves_noticeTest (s : State) : Moves s (noticeTest s) := Moves.repeated moves_noticeOnce 16 s

theorem moves_raise (kind : EventKind) (d : Detail) (s : State) : Moves s (raise kind d s) := by
  unfold raise
  split
  · exact .refl s
  · next h =>
    have m := Moves.one (Move.flag s kind.num d (by simpa using h))
    dsimp only
    split
    · exact m.trans (moves_noticeTest _)
    · exact m

/-! ### Replies and node notices -/

theorem moves_emit (q : Req) (frees : Bool) (o : OutFrame) (ho : o.notice = false) (s : State) :
    Moves s (emit q frees o s) := by
  unfold emit
  split
  · next h => exact .one (.pushReply s q.port ⟨o, frees⟩ (by simp at h; exact h.1) ho)
  · split
    · exact moves_freeTag _ _ s
    · exact .refl s

theorem moves_replyWith (q : Req) (st : Status) (fields : OutFrame → OutFrame)
    (s : State)
    (hf : ∀ o, (fields o).notice = o.notice := by intro _; rfl) : Moves s (replyWith q st fields s) :=
  moves_emit q true _ (hf _) s

theorem moves_reply (q : Req) (st : Status) (s : State) : Moves s (reply q st s) :=
  moves_replyWith q st id s

theorem moves_refuseAtIngress (q : Req) (st : Status) (s : State) : Moves s (refuseAtIngress q st s) :=
  moves_emit q false _ rfl s

theorem moves_replyReset (q : Req) (s : State) : Moves s (replyReset q s) :=
  (moves_emit q false _ rfl s).andThen (moves_freeTag _ _)

theorem moves_replyOwed (owed : Option Req) (st : Status) (s : State) : Moves s (replyOwed owed st s) := by
  unfold replyOwed; split
  · exact moves_reply _ _ s
  · exact .refl s

theorem moves_resetOwed (owed : Option Req) (s : State) : Moves s (resetOwed owed s) := by
  unfold resetOwed; split
  · exact moves_replyReset _ s
  · exact .refl s

theorem moves_notify (n : Nat) (o : OutFrame) (s : State) (ho : o.notice = true := by rfl) : Moves s (notify n o s) := by
  unfold notify
  split
  · split
    · split
      · next room => exact .one (.pushNotice s _ o room ho)
      · exact moves_raise _ _ s
    · exact .refl s
  · exact .refl s

/-! ### Generation updates -/

theorem moves_fireWatches (e : Nat) (v : Pair) (why : ChangeReason) {s : State} :
    Moves s (fireWatches e v why (setPair e v s)) := by
  unfold fireWatches
  exact (Moves.one (.publish s e v)).trans (Moves.forEachFree (fun _ u => moves_notify _ _ u) _)

theorem moves_loanUpdate (e : Nat) (step torn : Bool) (s : State) : Moves s (loanUpdate e step torn s) := by
  unfold loanUpdate
  dsimp only
  refine Moves.trans ?_ (Moves.onlyIf (fun _ => moves_raise _ _ _))
  cases step
  · exact .one (.mark s e _ rfl)
  · exact moves_fireWatches e _ _

theorem moves_serviceUpdate (e : Nat) (s : State) : Moves s (serviceUpdate e s) := moves_fireWatches e _ _

theorem moves_mapUpdate (e : Nat) (s : State) : Moves s (mapUpdate e s) := by
  unfold mapUpdate dropWatches
  exact (Moves.one (.remap s e)).andThen (fun u => Moves.forEachFree (fun _ v => moves_notify _ _ v) u)

/-! ### The swap and the tests of an end -/

theorem moves_clearDrainMark (e : Nat) (s : State) : Moves s (clearDrainMark e s) := .one (.drainMark s e false)

theorem moves_setDrainMark (e : Nat) (s : State) : Moves s (setDrainMark e s) := .one (.drainMark s e true)

theorem moves_doSwap (s : State) (legal : s.loader.state = .draining ∨ checkWalk [] s.loader.staging = none) :
    Moves s (doSwap s) := by
  unfold doSwap
  dsimp only
  refine Moves.trans ?_ (moves_replyOwed _ _ _)
  refine Moves.trans ?_ (moves_resetLoaderState _)
  refine Moves.trans ?_ (Moves.forEach moves_clearDrainMark _)
  refine Moves.step ?_ (.fences _ _)
  exact (Moves.one (.swapIn s legal)).andThen (Moves.forEachFree moves_mapUpdate)

theorem moves_drainTest (s : State) : Moves s (drainTest s) := by
  unfold drainTest; split
  · next h =>
    simp only [Bool.and_eq_true, decide_eq_true_eq] at h
    exact moves_doSwap s (.inl h.1)
  · exact .refl s

theorem moves_entryTest (b : Nat) (s : State) : Moves s (entryTest b s) := by
  unfold entryTest; split
  · exact (moves_updBay b _ s).andThen (moves_replyOwed _ _)
  · exact .refl s

theorem moves_afterEnd (t : Tests) (e : Nat) (s : State) : Moves s (afterEnd t e s) := by
  refine Moves.forEachFree (fun x u => ?_) s
  cases x
  · exact moves_drainTest u
  · exact moves_entryTest _ u

/-! ### Claim queues -/

theorem moves_tidyWait (e : Nat) (s : State) : Moves s (tidyWait e s) := by
  unfold tidyWait; split
  · exact .refl s
  · exact .one (.tableWait s _)

theorem moves_joinWait (e : Nat) (s : State) : Moves s (joinWait e s) := by
  unfold joinWait; split
  · exact .refl s
  · exact .one (.tableWait s _)

theorem moves_leave (e : Nat) (s : State) (q : List ClaimEntry) (h : q.length ≤ (s.xl e).queue.length) :
    Moves s (updXl e (fun x => { x with queue := q }) s) := .one (.leaveQueue s e q h)

theorem moves_dropEntry (e : Nat) (c : ClaimEntry) (s : State) : Moves s (dropEntry e c s) := by
  unfold dropEntry
  have m : Moves s (updXl e (fun x => { x with queue := x.queue.erase c }) s) :=
    moves_leave e s ((s.xl e).queue.erase c) List.length_erase_le
  split
  · refine m.trans (moves_updLoan _ _ _ ?_)
    split
    · next h => exact .live (by rw [h]; decide) (by simp) rfl (.inl rfl)
    · exact .same rfl
  · exact m.andThen (moves_updNode _ _)
  · exact m.andThen (moves_updNode _ _)

theorem moves_refuseEntry (st : Status) (e : Nat) (c : ClaimEntry) (s : State) : Moves s (refuseEntry st e c s) :=
  ((moves_dropEntry e c s).andThen (moves_tidyWait e)).andThen (moves_reply c.req st)

theorem moves_refuseQueue (st : Status) (e : Nat) (s : State) : Moves s (refuseQueue st e s) :=
  Moves.forEach (moves_refuseEntry st e) s

theorem moves_endUpgrade (st : Status) (slot : Nat) (s : State) : Moves s (endUpgrade st slot s) := by
  unfold endUpgrade
  dsimp only
  split
  · exact moves_refuseEntry _ _ _ s
  · exact .refl s

/-! ### Grants -/

theorem moves_replyGranted (q : Req) (slot : Nat) (s : State) : Moves s (replyGranted q slot s) :=
  moves_replyWith q .granted _ s

theorem moves_grant (q : Req) (e : Nat) (mode : Mode) (cls slot : Nat) (s : State)
    (place : slot < Config.loanSlots) (free : (s.loan slot).state = .free) (alone : mode = .sole → s.summary e = .idle)
    (room : s.summary e ≠ .sole) : Moves s (grant q e mode cls slot s) := by
  unfold grant
  dsimp only
  refine Moves.trans ?_ (moves_replyGranted q slot _)
  refine Moves.trans ?_ (moves_updNode _ _ _)
  exact .one (.grant s slot _ place free rfl alone room)

theorem free_of_freeSlotFrom {s : State} {fuel n slot : Nat} (h : freeSlotFrom s fuel n = some slot) :
    (s.loan slot).state = .free := by
  induction fuel generalizing n with
  | zero => simp [freeSlotFrom] at h
  | succ fuel ih =>
    simp only [freeSlotFrom] at h
    split at h
    · next hf => cases h; exact hf
    · exact ih h

theorem free_of_lowestFree {s : State} {slot : Nat} (h : s.lowestFree = some slot) : (s.loan slot).state = .free :=
  free_of_freeSlotFrom h

theorem lt_of_freeSlotFrom {s : State} {fuel n slot : Nat} (h : freeSlotFrom s fuel n = some slot) : slot < n + fuel := by
  induction fuel generalizing n with
  | zero => simp [freeSlotFrom] at h
  | succ fuel ih =>
    simp only [freeSlotFrom] at h
    split at h
    · cases h; omega
    · have := ih h; omega

theorem lt_of_lowestFree {s : State} {slot : Nat} (h : s.lowestFree = some slot) : slot < Config.loanSlots := by
  simpa using lt_of_freeSlotFrom h

theorem loan_congr {s t : State} (h : s.loans.table = t.loans.table) (n : Nat) : s.loan n = t.loan n := by
  unfold State.loan; rw [h]

theorem summary_congr {s t : State} (h : s.loans.table = t.loans.table) (e : Nat) : s.summary e = t.summary e := by
  unfold State.summary State.loansOn; rw [h]

theorem isOnlyLoan_congr {s t : State} (h : s.loans.table = t.loans.table) (e : Nat) (x : Handle) :
    s.isOnlyLoan e x = t.isOnlyLoan e x := by
  unfold State.isOnlyLoan State.loansOn; rw [h]

theorem moves_grantHead (e : Nat) (c : ClaimEntry) (mode : Mode) (slot : Nat) (s : State)
    (place : slot < Config.loanSlots) (free : (s.loan slot).state = .free) (alone : mode = .sole → s.summary e = .idle)
    (room : s.summary e ≠ .sole) : Moves s (grantHead e c mode slot s) := by
  unfold grantHead
  have m : Moves s (updXl e (fun x => { x with queue := x.queue.tail }) s) :=
    moves_leave e s (s.xl e).queue.tail (by simp)
  refine Moves.trans (m.trans (moves_updNode c.req.node (fun r => { r with waiting := r.waiting - 1 }) _)) ?_
  have ht : ∀ f, (updNode c.req.node f (updXl e (fun x => { x with queue := x.queue.tail }) s)).loans.table
      = s.loans.table := by intro f; rw [updNode_loans]; rfl
  refine moves_grant c.req e mode c.cls slot _ place ?_ ?_ ?_
  · rw [loan_congr (ht _)]; exact free
  · rw [summary_congr (ht _)]; exact alone
  · rw [summary_congr (ht _)]; exact room

theorem moves_convertHead (e : Nat) (c : ClaimEntry) (h : Handle) (s : State) (only : s.isOnlyLoan e h = true) :
    Moves s (convertHead e c h s) := by
  unfold convertHead
  have m : Moves s (updXl e (fun x => { x with queue := x.queue.tail }) s) :=
    moves_leave e s (s.xl e).queue.tail (by simp)
  refine Moves.trans (m.step (.convert _ e h ?_)) (moves_replyGranted _ _ _)
  rw [isOnlyLoan_congr (s := updXl e _ s) (t := s) rfl]; exact only

theorem moves_serveHeads (fuel e : Nat) (s : State) : Moves s (serveHeads fuel e s) := by
  induction fuel generalizing s with
  | zero => exact .refl s
  | succ fuel ih =>
    unfold serveHeads
    split
    · exact .refl s
    · split
      · exact .refl s
      · split
        · split
          · next only => exact (moves_convertHead _ _ _ s only).trans (ih _)
          · exact .refl s
        · split
          · next idle =>
            split
            · next slot h =>
              exact (moves_grantHead e _ .sole slot s (lt_of_lowestFree h) (free_of_lowestFree h) (fun _ => idle)
                (by rw [idle]; decide)).trans (ih _)
            · exact moves_joinWait e s
          · exact .refl s
        · split
          · exact .refl s
          · next room =>
            split
            · next slot h =>
              exact (moves_grantHead e _ .shared slot s (lt_of_lowestFree h) (free_of_lowestFree h)
                (by intro h; cases h) room).trans (ih _)
            · exact (moves_joinWait e s).andThen (moves_raise _ _)

theorem moves_reevaluate (e : Nat) (s : State) : Moves s (reevaluate e s) :=
  (moves_serveHeads _ e s).andThen (moves_tidyWait e)

theorem moves_serveWaitFrom (fuel : Nat) (s : State) : Moves s (serveWaitFrom fuel s) := by
  induction fuel generalizing s with
  | zero => exact .refl s
  | succ fuel ih =>
    unfold serveWaitFrom
    split
    · split
      · exact moves_reevaluate _ s
      · exact (moves_reevaluate _ s).trans (ih _)
    · exact .refl s

theorem moves_serveTableWait (s : State) : Moves s (serveTableWait s) := moves_serveWaitFrom _ s

/-! ### Ends of loans -/

theorem moves_freeLoan (slot : Nat) (cause : EndCause) (s : State) : Moves s (freeLoan slot cause s) := by
  unfold freeLoan
  dsimp only
  refine Moves.trans ?_ (Moves.onlyIf (fun _ => moves_updNode _ _ _))
  refine Moves.step ?_ (.loan _ slot _ (.freed _ rfl))
  have m : ∀ c d, Moves s (onlyIf c (endUpgrade .loanEnded slot) (onlyIf d (loanUpdate (s.loan slot).extent
      (decide (0 < (s.loan slot).writes)) (endTorn cause (s.loan slot).doubtful)) s)) := fun c d =>
    (Moves.onlyIf (fun _ => moves_loanUpdate _ _ _ s)).trans (Moves.onlyIf (fun _ => moves_endUpgrade _ _ _))
  split
  · exact (m _ _).trans (moves_replyWith _ _ _ _)
  · exact m _ _

theorem moves_serveAfterFree (e : Nat) (s : State) : Moves s (serveAfterFree e s) :=
  (moves_reevaluate e s).andThen moves_serveTableWait

theorem moves_endLoan (t : Tests) (slot : Nat) (cause : EndCause) (s : State) : Moves s (endLoan t slot cause s) :=
  ((moves_freeLoan slot cause s).andThen (moves_serveAfterFree _)).andThen (moves_afterEnd t _)

theorem moves_closeLoan (slot : Nat) (cause : EndCause) (s : State) : Moves s (closeLoan slot cause s) := by
  refine moves_updLoan slot _ s ?_
  split
  · exact .same rfl
  · next h => exact .live h (by simp) rfl (.inl rfl)

/-! ### Bays -/

theorem moves_issueTest (b : Nat) (s : State) : Moves s (issueTest b s) := by
  unfold issueTest
  split
  · next rest _ hq =>
    split
    · exact .one (.bay s b _ (.inl (by simp [hq])))
    · exact .refl s
  · exact .refl s

theorem moves_joinBay (b : Nat) (x : Transfer) (s : State) (room : (s.bay b).queue.length < Config.bayQueueSize) :
    Moves s (joinBay b x s) := by
  refine Moves.trans (.one (.bay s b _ (.inr ?_))) (Moves.onlyIf (fun _ => moves_issueTest b _))
  simp only [List.length_append, List.length_singleton]
  omega

theorem live_iff {s : State} {h : Handle} :
    s.live h = true ↔ (s.loan h.slot).state ≠ .free ∧ (s.loan h.slot).issue = h.issue := by
  simp [State.live]

theorem moves_handEnd (t : Tests) (x : Transfer) (inFlight frees : Bool) (st : Status) (s : State) :
    Moves s (handEnd t x inFlight frees st s) := by
  unfold handEnd
  split
  · split
    · next hl =>
      dsimp only
      refine Moves.trans ?_ (Moves.onlyIf (fun _ => moves_endLoan t _ _ _))
      exact .one (.loan s _ _ (.live (live_iff.1 hl).1 (live_iff.1 hl).1 rfl (.inl rfl)))
    · exact .refl s
  · split
    · refine Moves.trans ?_ (moves_afterEnd t _ _)
      exact .one (.openReads s _ _)
    · exact .refl s

theorem moves_cancelWith (answer : Req → State → State) (ha : ∀ q s, Moves s (answer q s)) (t : Tests) (frees : Bool)
    (st : Status) (b : Nat) (pick : Transfer → Bool) (s : State) :
    Moves s (cancelWith answer t frees st b pick s) := by
  unfold cancelWith
  dsimp only
  refine Moves.trans ?_ (Moves.forEach (fun x u => (ha x.req u).trans (moves_handEnd t x false frees st _)) _)
  refine moves_updBay b _ s ?_
  intro y; exact List.length_filter_le _ _

theorem moves_cancelQueued (t : Tests) (frees : Bool) (st : Status) (b : Nat) (pick : Transfer → Bool) (s : State) :
    Moves s (cancelQueued t frees st b pick s) :=
  moves_cancelWith _ (fun q => moves_reply q st) t frees st b pick s

theorem okFields_notice (s : State) (x : Transfer) (data : List Byte) (o : OutFrame) :
    (okFields s x data o).notice = o.notice := by
  unfold okFields; split <;> rfl

theorem moves_endInFlight (b : Nat) (fl : InFlight) (st : Status) (data : List Byte) (between : State → State)
    (hb : ∀ s, Moves s (between s)) (s : State) : Moves s (endInFlight b fl st data between s) := by
  unfold endInFlight
  dsimp only
  refine Moves.trans ?_ (moves_issueTest b _)
  refine Moves.trans ?_ (hb _)
  refine Moves.trans ?_ (moves_entryTest b _)
  refine Moves.trans ?_ (moves_handEnd _ _ _ _ _ _)
  refine Moves.trans (moves_updBay b _ s) (Moves.onlyIf (fun _ => ?_))
  refine moves_replyWith _ _ _ _ (fun o => ?_)
  split
  · exact okFields_notice _ _ _ o
  · rfl

/-! ### Revocation, failure and loss -/

theorem moves_cancelLoan (t : Tests) (h : Handle) (st : Status) (s : State) : Moves s (cancelLoan t h st s) :=
  moves_cancelQueued _ _ _ _ _ s

theorem moves_notifyRevoked (holder : Nat) (h : Handle) (e : Nat) (why : Reason) (s : State) :
    Moves s (notifyRevoked holder h e why s) := Moves.onlyIf (fun _ => moves_notify _ _ s)

theorem moves_closeOrEnd (t : Tests) (h : Handle) (cause : EndCause) (wasUpgrading : Bool) (s : State) :
    Moves s (closeOrEnd t h cause wasUpgrading s) := by
  unfold closeOrEnd
  split
  · exact (moves_closeLoan _ _ s).trans (Moves.onlyIf (fun _ => moves_reevaluate _ _))
  · exact moves_endLoan t _ _ s

theorem moves_revoke (t : Tests) (why : Reason) (slot : Nat) (s : State) : Moves s (revoke t why slot s) := by
  have live : Moves s
      (s |> onlyIf (decide ((s.loan slot).state = .upgrading)) (endUpgrade .loanEnded slot)
        |> cancelLoan t (s.handleOf slot) why.cancelStatus
        |> closeOrEnd t (s.handleOf slot) (.revoked why) (decide ((s.loan slot).state = .upgrading))
        |> notifyRevoked (s.loan slot).holder (s.handleOf slot) (s.loan slot).extent why) :=
    ((Moves.onlyIf (fun _ => moves_endUpgrade _ _ s)).andThen (moves_cancelLoan _ _ _)).andThen
      (moves_closeOrEnd _ _ _ _) |>.andThen (moves_notifyRevoked _ _ _ _)
  unfold revoke
  dsimp only
  split
  · exact .refl s
  · exact live
  · exact live
  · refine Moves.trans ?_ (moves_notifyRevoked _ _ _ _ _)
    exact ((moves_closeLoan _ _ s).andThen (moves_cancelLoan _ _ _)).trans
      (Moves.onlyIf (fun _ => moves_endLoan _ _ _ _))

theorem moves_refuseQueues (st : Status) (es : List Nat) (s : State) : Moves s (refuseQueues st es s) :=
  Moves.forEachFree (moves_refuseQueue st) s

theorem moves_revokeAll (t : Tests) (why : Reason) (es : List Nat) (s : State) : Moves s (revokeAll t why es s) :=
  Moves.forEachFree (moves_revoke t why) s

theorem moves_failBay (b : Nat) (s : State) : Moves s (failBay b s) := by
  unfold failBay
  exact ((((((moves_updBay b _ s).andThen (moves_replyOwed _ _)).andThen
    (moves_refuseQueues _ _)).andThen (moves_revokeAll _ _ _)).andThen (moves_cancelQueued _ _ _ _ _)).andThen
    (moves_raise _ _))

theorem moves_loseInFlight (b : Nat) (s : State) : Moves s (loseInFlight b s) := by
  unfold loseInFlight
  split
  · exact moves_endInFlight _ _ _ _ _ (fun s => .refl s) s
  · exact .refl s

theorem moves_loseBay (b : Nat) (s : State) : Moves s (loseBay b s) := by
  unfold loseBay
  exact (((((((moves_updBay b _ s).andThen (moves_replyOwed _ _)).andThen
    (moves_refuseQueues _ _)).andThen (moves_revokeAll _ _ _)).andThen (moves_loseInFlight b)).andThen
    (moves_cancelQueued _ _ _ _ _)).andThen (moves_raise _ _))

theorem moves_presentBay (b capacity : Nat) (s : State) : Moves s (presentBay b capacity s) :=
  (moves_updBay b _ s).andThen (moves_raise _ _)

theorem moves_timeOutTransfer (b : Nat) (s : State) : Moves s (timeOutTransfer b s) := by
  unfold timeOutTransfer
  split
  · exact (moves_updBay b _ s).andThen
      (moves_endInFlight _ _ _ _ _ (fun u => Moves.onlyIf (fun _ => moves_failBay b u)))
  · exact .refl s

theorem moves_succeedTransfer (b : Nat) (fl : InFlight) (data : List Byte) (s : State) :
    Moves s (succeedTransfer b fl data s) :=
  ((moves_updBay b _ s).andThen (Moves.forEachFree moves_serviceUpdate)).andThen
    (moves_endInFlight _ _ _ _ _ (fun s => .refl s))

/-! ### Fences -/

theorem moves_recordHit (k : FencedKind) (b first count node e : Nat) (s : State) :
    Moves s (recordHit k b first count node e s) := by
  unfold recordHit
  exact (Moves.one (.fences s _)).andThen (moves_raise _ _)

theorem place_of_freePlace {s : State} {i : Nat} (h : s.freePlace = some i) : i < Config.heldSize :=
  List.mem_range.1 (List.mem_of_find?_eq_some h)

theorem moves_holdRequest (q : Req) (args : HeldArgs) (by_ : List Nat) (s : State) :
    Moves s (holdRequest q args by_ s) := by
  unfold holdRequest
  split
  · next i h => exact (Moves.one (.hold s i _ (place_of_freePlace h))).andThen (moves_raise _ _)
  · exact moves_reply _ _ s

theorem moves_fenceStep (k : FencedKind) (b first count e : Nat) (q : Req) (args : HeldArgs) (next : State → State)
    (s : State) (hn : Moves s (next s)) : Moves s (fenceStep k b first count e q args next s) := by
  unfold fenceStep
  split
  · exact hn
  · exact (moves_recordHit _ _ _ _ _ _ s).andThen (moves_reply _ _)
  · exact (moves_recordHit _ _ _ _ _ _ s).andThen (moves_holdRequest _ _ _)

/-! ### Ingress and the ports' links -/

theorem moves_admit (q : Req) (s : State) : Moves s (admitReq q s) :=
  (moves_updNode _ _ s).trans (Moves.onlyIf (fun _ => moves_noticeTest _))

theorem moves_ingress (p : PortId) (code : Nat) (f : Frame) (legal : Bool) (take : Req → State → State)
    (ht : legal = true → ∀ q s, Moves s (take q s)) (s : State) : Moves s (ingress p code f legal take s) := by
  unfold ingress
  split
  · next up =>
    split
    · exact moves_raise _ _ s
    · next room =>
      have m := Moves.one (Move.reserve s p up (Nat.lt_of_not_le room))
      split
      · exact m.andThen (moves_refuseAtIngress _ _)
      · next h =>
        have legal_ok : legal = true := by
          unfold State.ingressRefusal at h
          split at h
          · cases h
          · repeat (split at h; · cases h)
            simp_all
        exact (m.andThen (moves_admit _)).andThen (ht legal_ok _)
  · exact .refl s

theorem moves_unlessBarred (take : Req → State → State) (ht : ∀ q s, Moves s (take q s)) (q : Req) (s : State) :
    Moves s (unlessBarred take q s) := by
  unfold unlessBarred; split
  · exact moves_reply _ _ s
  · exact ht q s

theorem moves_discardReady (x : Ready) (s : State) : Moves s (discardReady x s) :=
  Moves.onlyIf (fun _ => moves_freeTag _ _ s)

theorem moves_placeFree (p : PortId) (s : State) : Moves s (placeFree p s) := by
  unfold placeFree; split
  · exact Moves.onlyIf (fun _ => moves_noticeTest s)
  · exact .refl s

theorem moves_headLeaves (p : PortId) (x : Ready) (rest : List Ready) (s : State) (up : (s.port p).up = true)
    (head : (s.port p).egress = x :: rest) : Moves s (headLeaves p x rest s) := by
  unfold headLeaves; split
  · next h => exact (Moves.one (.noticeLeaves s p x rest up head h)).andThen (moves_placeFree p)
  · next h => exact (Moves.one (.replyLeaves s p x rest up head (by simpa using h))).andThen (moves_discardReady x)

/-! ### Loans -/

theorem moves_waitForLoan (q : Req) (e : Nat) (mode : Mode) (cls wait : Nat) (s : State) :
    Moves s (waitForLoan q e mode cls wait s) := by
  unfold waitForLoan
  split
  · exact moves_reply _ _ s
  · split
    · exact (moves_reply _ _ s).andThen (moves_raise _ _)
    · next room =>
      exact (Moves.one (.joinQueue s e _ (Nat.lt_of_not_le room) (by simp))).andThen
        (moves_updNode _ _)

theorem moves_decideClaim (q : Req) (e : Nat) (mode : Mode) (cls wait : Nat) (s : State) :
    Moves s (decideClaim q e mode cls wait s) := by
  unfold decideClaim
  split
  · next h =>
    split
    · next slot hs =>
      simp only [State.grantsNow, Bool.and_eq_true] at h
      refine moves_grant q e mode cls slot s (lt_of_lowestFree hs) (free_of_lowestFree hs) ?_ ?_
      · intro hm; subst hm; simpa using h.2
      · cases mode
        · simpa using h.2
        · have : s.summary e = .idle := by simpa using h.2
          rw [this]; decide
    · exact (moves_reply _ _ s).andThen (moves_raise _ _)
  · exact moves_waitForLoan q e mode cls wait s

theorem moves_decideUpgrade (q : Req) (e cls wait slot : Nat) (s : State) :
    Moves s (decideUpgrade q e cls wait slot s) := by
  unfold decideUpgrade
  split
  · exact moves_reply _ _ s
  · split
    · next only =>
      refine Moves.trans ?_ (moves_tidyWait e _)
      refine Moves.trans ?_ (moves_replyGranted q slot _)
      exact .one (.convert s e (s.handleOf slot) only)
    · split
      · exact moves_reply _ _ s
      · split
        · exact (moves_reply _ _ s).andThen (moves_raise _ _)
        · next room =>
          refine Moves.trans ?_ (moves_tidyWait e _)
          refine Moves.trans ?_ (moves_updLoan _ _ _ ?_)
          · exact .one (.joinQueue s e (_ :: (s.xl e).queue) (Nat.lt_of_not_le room) (by simp))
          split
          · next h => exact .live (by rw [h]; decide) (by simp) rfl (.inl rfl)
          · exact .same rfl

theorem moves_claimFrom3 (q : Req) (e : Nat) (mode : Mode) (cls wait : Nat) (s : State) :
    Moves s (claimFrom3 q e mode cls wait s) := by
  unfold claimFrom3
  split
  · exact moves_reply _ _ s
  · split
    · exact moves_reply _ _ s
    · split
      · split
        · exact moves_decideUpgrade _ _ _ _ _ s
        · exact moves_reply _ _ s
      · split
        · exact moves_reply _ _ s
        · exact moves_decideClaim _ _ _ _ _ s

theorem moves_claimFrom1 (e : Nat) (mode : Mode) (cls wait : Nat) (q : Req) (s : State) :
    Moves s (claimFrom1 e mode cls wait q s) := by
  unfold claimFrom1
  split
  · exact moves_reply _ _ s
  · exact moves_fenceStep _ _ _ _ _ _ _ _ s (moves_claimFrom3 _ _ _ _ _ s)

theorem moves_withHandle (h : Handle) (take : Req → State → State) (q : Req) (s : State)
    (ht : s.holds q.node h = true → Moves s (take q s)) : Moves s (withHandle h take q s) := by
  unfold withHandle; split
  · next hh => exact ht hh
  · exact moves_reply _ _ s

theorem live_of_holds {s : State} {n : Nat} {h : Handle} (hh : s.holds n h = true) : (s.loan h.slot).state ≠ .free := by
  simp only [State.holds, Bool.and_eq_true] at hh
  exact (live_iff.1 hh.1).1

theorem moves_renewLoan (slot : Nat) (q : Req) (s : State) (live : (s.loan slot).state ≠ .free) :
    Moves s (renewLoan slot q s) := by
  unfold renewLoan; split
  · exact moves_reply _ _ s
  · exact (moves_updLoan_keep _ _ _ live).andThen (fun u => moves_replyWith _ _ _ u)

theorem moves_downgradeLoan (slot : Nat) (q : Req) (s : State) (live : (s.loan slot).state ≠ .free) : Moves s (downgradeLoan slot q s) := by
  unfold downgradeLoan
  dsimp only
  split
  · exact moves_reply _ _ s
  · split
    · exact moves_reply _ _ s
    · split
      · exact moves_reply _ _ s
      · refine Moves.trans (Moves.trans (Moves.trans (moves_loanUpdate _ _ _ s) (moves_updLoan _ _ _ ?_))
          (moves_reevaluate _ _)) (moves_replyWith _ _ _ _)
        rw [loanUpdate_loan]
        exact .live live live rfl (.inr rfl)

theorem live_endUpgrade (st : Status) (slot n : Nat) (s : State) (live : (s.loan n).state ≠ .free) :
    ((endUpgrade st slot s).loan n).state ≠ .free := by
  unfold endUpgrade
  dsimp only
  split
  · unfold refuseEntry
    simp only [reply_loan]
    rw [loan_congr (t := dropEntry (s.loan slot).extent _ s)
      (by unfold tidyWait; split <;> rfl)]
    unfold dropEntry
    split
    · rw [loan_updLoan]
      split
      · next h =>
        subst h
        split
        · simp
        · exact live
      · exact live
    · simp only [updNode_loan]; exact live
    · simp only [updNode_loan]; exact live
  · exact live

theorem live_closeLoan (slot n : Nat) (cause : EndCause) (s : State) (live : (s.loan n).state ≠ .free) :
    ((closeLoan slot cause s).loan n).state ≠ .free := by
  unfold closeLoan
  rw [loan_updLoan]
  split
  · next h =>
    subst h
    split
    · exact live
    · simp
  · exact live

theorem moves_releaseLoan (slot : Nat) (q : Req) (s : State) (live : (s.loan slot).state ≠ .free) : Moves s (releaseLoan slot q s) := by
  unfold releaseLoan
  split
  · exact moves_reply _ _ s
  · split
    · unfold releaseNow
      dsimp only
      refine Moves.trans ?_ (moves_afterEnd _ _ _)
      refine Moves.trans ?_ (moves_replyWith _ _ _ _)
      refine Moves.trans ?_ (moves_serveAfterFree _ _)
      exact moves_freeLoan slot _ s
    · unfold releaseLater
      dsimp only
      refine Moves.trans ?_ (Moves.onlyIf (fun _ => moves_reevaluate _ _))
      refine Moves.trans ?_ (moves_updLoan_keep _ _ _ ?_)
      · refine Moves.trans ?_ (moves_closeLoan _ _ _)
        exact Moves.onlyIf (fun _ => moves_endUpgrade _ _ s)
      · refine live_closeLoan _ _ _ _ ?_
        unfold onlyIf
        split
        · exact live_endUpgrade _ _ _ s live
        · exact live

theorem moves_revokeLoan (h : Handle) (q : Req) (s : State) : Moves s (revokeLoan h q s) := by
  unfold revokeLoan; split
  · exact (moves_revoke _ _ _ s).andThen (moves_reply _ _)
  · exact moves_reply _ _ s

/-! ### Transfers -/

theorem room_of_bayRefusal {s : State} {b : Nat} (h : s.bayRefusal b = none) :
    (s.bay b).queue.length < Config.bayQueueSize := by
  unfold State.bayRefusal at h
  split at h <;> first
    | cases h
    | (split at h
       · cases h
       · next hlt => exact Nat.lt_of_not_le hlt)

theorem moves_transferFrom4 (write : Bool) (h : Handle) (offset count : Nat) (data : List Byte) (q : Req) (s : State) :
    Moves s (transferFrom4 write h offset count data q s) := by
  unfold transferFrom4
  split
  · exact moves_reply _ _ s
  · exact moves_reply _ _ s
  all_goals
    split
    · exact moves_reply _ _ s
    · split
      · exact moves_reply _ _ s
      · split
        · exact moves_reply _ _ s
        · next hb =>
          refine (moves_updLoan_keep _ _ s ?_).trans (moves_joinBay _ _ _ (room_of_bayRefusal hb))
          simp_all

theorem moves_transferFrom2 (write : Bool) (h : Handle) (offset count : Nat) (data : List Byte) (q : Req) (s : State) :
    Moves s (transferFrom2 write h offset count data q s) := by
  unfold transferFrom2
  split
  · exact moves_reply _ _ s
  · split
    · exact moves_reply _ _ s
    · exact moves_fenceStep _ _ _ _ _ _ _ _ s (moves_transferFrom4 _ _ _ _ _ _ s)

theorem moves_openReadFrom6 (e : Nat) (r : ExtentRec) (offset count : Nat) (q : Req) (s : State) :
    Moves s (openReadFrom6 e r offset count q s) := by
  unfold openReadFrom6
  split
  · exact moves_reply _ _ s
  · next hb => exact (Moves.one (.openReads s e _)).trans (moves_joinBay _ _ _ (room_of_bayRefusal hb))

theorem moves_openReadFrom1 (e offset count : Nat) (q : Req) (s : State) :
    Moves s (openReadFrom1 e offset count q s) := by
  unfold openReadFrom1
  split
  · exact moves_reply _ _ s
  · split
    · exact moves_reply _ _ s
    · exact moves_fenceStep _ _ _ _ _ _ _ _ s (moves_openReadFrom6 _ _ _ _ _ s)

theorem moves_resume (args : HeldArgs) (q : Req) (s : State) : Moves s (resume args q s) := by
  unfold resume
  split
  · exact moves_claimFrom3 _ _ _ _ _ s
  · split
    · exact moves_transferFrom4 _ _ _ _ _ _ s
    · exact moves_reply _ _ s
  · unfold resumeOpenRead
    split
    · exact moves_reply _ _ s
    · split
      · exact moves_reply _ _ s
      · split
        · exact moves_reply _ _ s
        · exact moves_openReadFrom6 _ _ _ _ _ s

/-! ### Watches -/

theorem moves_setWatch (e : Nat) (expect : Option (BitVec 32)) (q : Req) (s : State)
    (room : (s.watches.look (watchKey e q.node)).isSome = true ∨ s.watches.length < Config.watchSize) :
    Moves s (setWatch e expect q s) := by
  have m := fun st => Moves.one (Move.latch s e q.node st room)
  unfold setWatch
  split
  · exact (m _).andThen (fun u => moves_replyWith _ _ _ u)
  · split
    · exact (m _).andThen (fun u => moves_replyWith _ _ _ u)
    · exact ((m _).andThen (fun u => moves_replyWith _ _ _ u)).andThen (fun v => moves_notify _ _ v)

theorem moves_takeWatch (e : Nat) (expect : Option (BitVec 32)) (q : Req) (s : State) :
    Moves s (takeWatch e expect q s) := by
  unfold takeWatch
  split
  · exact moves_reply _ _ s
  · split
    · next h => exact moves_setWatch _ _ _ s (.inl h)
    · split
      · exact (moves_reply _ _ s).andThen (moves_raise _ _)
      · next h => exact moves_setWatch _ _ _ s (.inr (Nat.lt_of_not_le h))

theorem moves_takeUnwatch (e : Nat) (q : Req) (s : State) : Moves s (takeUnwatch e q s) := by
  unfold takeUnwatch; split
  · exact (Moves.one (.unwatch s _)).andThen (moves_reply _ _)
  · exact moves_reply _ _ s

/-! ### Fence requests -/

theorem moves_takeSetFence (i : Nat) (f : Frame) (q : Req) (s : State) : Moves s (takeSetFence i f q s) := by
  unfold takeSetFence
  dsimp only
  split
  · exact (Moves.one (.fences s _)).andThen (moves_reply _ _)
  · exact moves_reply _ _ s

theorem moves_dropHeld (i : Nat) (s : State) : Moves s (dropHeld i s) := .one (.unhold s i)

theorem moves_releaseHeld (i n t : Nat) (q : Req) (s : State) : Moves s (releaseHeld i n t q s) := by
  unfold releaseHeld
  split
  · refine (moves_dropHeld i s).andThen (Moves.forEachFree (fun x u => ?_))
    cases x
    · exact moves_reply _ _ u
    · exact moves_resume _ _ u
  · exact moves_reply _ _ s

theorem moves_rejectHeld (i n t : Nat) (q : Req) (s : State) : Moves s (rejectHeld i n t q s) := by
  unfold rejectHeld
  split
  · exact ((moves_dropHeld i s).andThen (moves_reply _ _)).andThen (moves_reply _ _)
  · exact moves_reply _ _ s

theorem moves_endHold (st : Status) (i : Nat) (s : State) : Moves s (endHold st i s) := by
  unfold endHold
  split
  · exact (moves_dropHeld i s).andThen (moves_reply _ _)
  · exact .refl s

theorem moves_ageHolds (s : State) : Moves s (ageHolds s) :=
  (Moves.one (.ageHeld s _)).andThen (fun u => Moves.forEach (moves_endHold _) u)

/-! ### The Map Loader -/

theorem moves_restartOpenTimer (s : State) : Moves s (restartOpenTimer s) := moves_setLoader _ s

theorem moves_inOpen (take : Req → State → State)
    (ht : ∀ q (s : State), s.loader.state = .opened → Moves s (take q s)) (q : Req) (s : State) :
    Moves s (inOpen take q s) := by
  unfold inOpen; split
  · next h => exact ht q s h
  all_goals exact moves_reply _ _ s

theorem moves_openLoad (q : Req) (s : State) : Moves s (openLoad q s) := by
  unfold openLoad; split
  · exact (Moves.one (.loader s _ (.inr (.inl rfl)) (by intro h; cases h))).andThen (moves_reply _ _)
  all_goals exact moves_reply _ _ s

theorem moves_stageExtent (e : Nat) (r : ExtentRec) (number : e < 4096) (q : Req) (s : State)
    (h : s.loader.state = .opened) :
    Moves s (stageExtent e r q s) :=
  ((moves_stage { s.loader with staging := s.loader.staging.put e r } s h rfl
    (.inr (.inr (.inr (.inl ⟨e, r, number, rfl⟩))))).andThen moves_restartOpenTimer).andThen
    (moves_reply _ _)

theorem moves_unstageExtent (e : Nat) (q : Req) (s : State) (h : s.loader.state = .opened) :
    Moves s (unstageExtent e q s) := by
  unfold unstageExtent; split
  · exact ((moves_stage { s.loader with staging := s.loader.staging.drop e } s h rfl
      (.inr (.inr (.inr (.inr ⟨e, rfl⟩))))).andThen moves_restartOpenTimer).andThen
      (moves_reply _ _)
  · exact (moves_restartOpenTimer s).andThen (moves_reply _ _)

theorem moves_readStaged (e : Nat) (q : Req) (s : State) : Moves s (readStaged e q s) := by
  unfold readStaged; split
  · exact (moves_restartOpenTimer s).trans (moves_replyWith _ _ _ _)
  · exact (moves_restartOpenTimer s).andThen (moves_reply _ _)

theorem moves_commitLoad (mode : CommitMode) (limit : Nat) (act : OnLimit) (q : Req) (s : State) :
    Moves s (commitLoad mode limit act q s) := moves_setLoader _ s

theorem moves_giveUpLoad (st : Status) (s : State) : Moves s (giveUpLoad st s) :=
  ((Moves.forEach moves_clearDrainMark s).andThen moves_resetLoaderState).andThen (moves_replyOwed _ _)

theorem moves_discardLoad (q : Req) (s : State) : Moves s (discardLoad q s) := by
  unfold discardLoad; split
  · exact moves_reply _ _ s
  all_goals exact (moves_giveUpLoad _ s).andThen (moves_reply _ _)

theorem moves_failCheck (x : CheckFault) (s : State) : Moves s (failCheck x s) := by
  unfold failCheck
  dsimp only
  have m : Moves s (setLoader { s.loader with
      state := .opened, mode := none, drainLimit := none, onLimit := none,
      openTimer := some Config.openTimeout, commitOwed := none } { s with choices := s.choices + x.lower.length }) :=
    (Moves.one (.choices s _)).trans (moves_setLoader _ _)
  split
  · exact m.andThen (fun u => moves_replyWith _ _ _ u)
  · exact m

theorem moves_forceExtent (e : Nat) (s : State) : Moves s (forceExtent e s) := by
  unfold forceExtent
  dsimp only
  exact (Moves.forEachFree (moves_revoke _ _) s).andThen (moves_cancelQueued _ _ _ _ _)

theorem moves_forceRevocations (s : State) : Moves s (forceRevocations s) := Moves.forEachFree moves_forceExtent s

theorem moves_enterDraining (affected : List Nat) (s : State) (legal : checkWalk [] s.loader.staging = none) :
    Moves s (enterDraining affected s) := by
  unfold enterDraining
  refine Moves.trans ?_ (moves_drainTest _)
  refine Moves.trans ?_ (Moves.onlyIf (fun _ => moves_forceRevocations _))
  refine Moves.trans ?_ (moves_refuseQueues _ _ _)
  refine Moves.trans ?_ (Moves.forEach moves_setDrainMark _)
  exact .one (.loader s _ (.inl rfl) (fun _ => .inr legal))

theorem moves_completeCheck (s : State) : Moves s (completeCheck s) := by
  unfold completeCheck
  split
  · exact moves_failCheck _ s
  · next legal =>
    dsimp only
    split
    · exact moves_enterDraining _ s legal
    · exact (moves_setLoader _ s).trans (moves_doSwap _ (.inr legal))

theorem moves_openTimeOut (s : State) : Moves s (openTimeOut s) :=
  (moves_resetLoaderState s).andThen (moves_raise _ _)

theorem moves_expireDrainLimit (s : State) : Moves s (expireDrainLimit s) := by
  unfold expireDrainLimit
  dsimp only
  have m : Moves s (setLoader { s.loader with drainTimer := none } s) := moves_setLoader _ s
  split
  · refine m.trans ?_
    refine Moves.trans ?_ (moves_drainTest _)
    refine Moves.trans ?_ (moves_forceRevocations _)
    refine Moves.trans ?_ (moves_setLoader _ _)
    exact moves_raise _ _ _
  all_goals exact m.trans ((moves_giveUpLoad _ _).andThen (moves_raise _ _))

theorem moves_ageLoader (s : State) : Moves s (ageLoader s) := by
  unfold ageLoader
  dsimp only
  split
  · exact (moves_setLoader _ s).trans (Moves.onlyIf (fun _ => moves_openTimeOut _))
  · exact (moves_setLoader _ s).trans (Moves.onlyIf (fun _ => moves_expireDrainLimit _))
  all_goals exact .refl s

/-! ### Service -/

theorem moves_forceService (b : Nat) (s : State) : Moves s (forceService b s) :=
  (moves_revokeAll _ _ _ s).andThen (moves_cancelQueued _ _ _ _ _)

theorem moves_serviceBay (b : Nat) (mode : CommitMode) (q : Req) (s : State) : Moves s (serviceBay b mode q s) := by
  unfold serviceBay; split
  · refine Moves.trans (Moves.trans (Moves.trans (moves_updBay b _ s)
      (moves_refuseQueues _ _ _)) (Moves.onlyIf (fun _ => moves_forceService b _))) (moves_entryTest b _)
  · exact moves_reply _ _ s

theorem moves_serviceTransfer (kind : TransferKind) (b first count : Nat) (data : List Byte) (q : Req) (s : State) :
    Moves s (serviceTransfer kind b first count data q s) := by
  unfold serviceTransfer
  split
  · exact moves_reply _ _ s
  · split
    · exact moves_reply _ _ s
    · split
      · exact moves_reply _ _ s
      · next h => exact moves_joinBay _ _ s (Nat.lt_of_not_le h)

theorem moves_readyBay (b : Nat) (q : Req) (s : State) : Moves s (readyBay b q s) :=
  ((moves_updBay b _ s).andThen (moves_reply _ _)).andThen (moves_issueTest b)

theorem moves_returnBay (b : Nat) (q : Req) (s : State) : Moves s (returnBay b q s) := by
  unfold returnBay; split
  · split
    · exact moves_readyBay b q s
    · exact moves_reply _ _ s
  · exact moves_readyBay b q s
  all_goals exact moves_reply _ _ s

/-! ### The Roster -/

theorem moves_enrollNode (n quota : Nat) (write : Bool) (ceiling : Nat) (q : Req) (s : State) :
    Moves s (enrollNode n quota write ceiling q s) := by
  unfold enrollNode
  split
  · exact moves_reply _ _ s
  · next new =>
    split
    · exact moves_reply _ _ s
    · next room =>
      exact (Moves.one (.enroll s n _ (by simpa using new) (Nat.lt_of_not_le room) rfl)).andThen (moves_reply _ _)

theorem moves_dropWatchesOf (n : Nat) (s : State) : Moves s (dropWatchesOf n s) := .one (.unwatch s _)

theorem moves_takeSetNode (n quota : Nat) (write : Bool) (ceiling : Nat) (takesRole : Bool) (q : Req) (s : State) :
    Moves s (takeSetNode n quota write ceiling takesRole q s) := by
  unfold takeSetNode
  split
  · exact moves_reply _ _ s
  · next r here =>
    split
    · unfold applySettings; split
      · exact moves_reply _ _ s
      · exact (moves_node n r _ s here).andThen (moves_reply _ _)
    · split
      · exact moves_reply _ _ s
      · split
        · exact moves_reply _ _ s
        · unfold moveRole
          refine Moves.trans ?_ (moves_reply _ _ _)
          refine Moves.trans ?_ (moves_noticeTest _)
          refine Moves.trans ?_ (moves_dropWatchesOf n _)
          exact .one (.moveRole s n r _ here rfl)

theorem moves_barLoans (n : Nat) (s : State) : Moves s (barLoans n s) := by
  unfold barLoans
  exact ((Moves.forEachFree (fun e u => Moves.forEach (moves_refuseEntry _ e) u) s).andThen
    (Moves.forEachFree moves_reevaluate)).andThen (fun u => Moves.forEachFree (moves_revoke _ _) u)

theorem moves_unwind (n : Nat) (x : Holding) (s : State) : Moves s (unwind n x s) := by
  cases x
  · exact Moves.forEach (moves_endHold _) s
  · exact moves_barLoans n s
  · exact Moves.forEachFree (fun b u => moves_cancelQueued _ _ _ _ _ u) s
  · exact moves_dropWatchesOf n s

theorem moves_barNode (n : Nat) (q : Req) (s : State) : Moves s (barNode n q s) := by
  unfold barNode
  split
  · exact moves_reply _ _ s
  · next r here =>
    split
    · exact moves_reply _ _ s
    · split
      · exact moves_reply _ _ s
      · exact ((moves_node n r _ s here).andThen (Moves.forEachFree (moves_unwind n))).andThen
          (moves_reply _ _)

theorem moves_unbarNode (n : Nat) (q : Req) (s : State) : Moves s (unbarNode n q s) := by
  unfold unbarNode
  split
  · exact moves_reply _ _ s
  · next r here =>
    split
    · exact (moves_node n r _ s here).andThen (moves_reply _ _)
    · exact moves_reply _ _ s

theorem moves_removeNode (n : Nat) (q : Req) (s : State) : Moves s (removeNode n q s) := by
  unfold removeNode
  split
  · exact moves_reply _ _ s
  · next r here =>
    split
    · exact moves_reply _ _ s
    · next role =>
      split
      · exact moves_reply _ _ s
      · exact (Moves.one (.remove s n r here role)).andThen (moves_reply _ _)

/-! ### The Lease Clock -/

theorem moves_expireLoan (slot : Nat) (s : State) : Moves s (expireLoan slot s) := by
  unfold expireLoan
  dsimp only
  refine Moves.trans ?_ (moves_raise _ _ _)
  refine Moves.trans ?_ (moves_notify _ _ _)
  refine Moves.trans (Moves.trans
    (Moves.onlyIf (c := decide ((s.loan slot).state = .upgrading)) (fun _ => moves_endUpgrade .loanEnded slot s))
    (moves_cancelLoan Tests.all (s.handleOf slot) .cancelled _)) ?_
  split
  · exact moves_closeLoan _ _ _
  · exact (moves_freeLoan _ _ _).andThen (moves_afterEnd _ _)

theorem moves_timeOutEntry (e : Nat) (c : ClaimEntry) (s : State) : Moves s (timeOutEntry e c s) :=
  (moves_reply _ _ s).andThen (moves_raise _ _)

theorem moves_timeOutEntries (e : Nat) (cs : List ClaimEntry) (s : State) : Moves s (timeOutEntries e cs s) :=
  (Moves.forEach (moves_dropEntry e) s).andThen (Moves.forEach (moves_timeOutEntry e))

theorem moves_ageExtent (t : Taps) (e : Nat) (s : State) : Moves s (ageExtent t e s) := by
  unfold ageExtent
  dsimp only
  refine Moves.trans (Moves.trans (Moves.trans (Moves.forEach moves_expireLoan s)
    (moves_timeOutEntries e _ _)) (Moves.onlyIf (fun _ => moves_reevaluate e _)))
    (Moves.onlyIf (fun _ => moves_serveTableWait _))

theorem moves_ageBlock (t : Taps) (x : AgeingBlock) (s : State) : Moves s (ageBlock t x s) := by
  cases x
  · exact (Moves.one (.age s t)).trans (Moves.forEach (moves_ageExtent t) _)
  · exact moves_ageHolds s
  · exact moves_ageLoader s

/-! ### Event requests -/

theorem moves_changeMask (level : Nat) (h : level ≤ 3) (q : Req) (s : State) : Moves s (takeMaskLevel level q s) := by
  unfold takeMaskLevel changeEvents
  refine Moves.trans ?_ (moves_reply _ _ _)
  refine Moves.trans ?_ (Moves.onlyIf (fun _ => moves_noticeTest _))
  exact .one (.maskLevel s level h)

theorem bodyByte_le_of_legalLevels {f : Frame} (h : legalLevels f = true) (i : Nat) : bodyByte f i ≤ 3 := by
  simp only [legalLevels, Bool.and_eq_true, List.all_eq_true, decide_eq_true_eq] at h
  unfold bodyByte byteAt
  by_cases hi : i < f.body.length
  · simp only [List.getD, List.getElem?_eq_getElem hi, Option.getD_some]
    exact h.2 _ (List.getElem_mem hi)
  · simp [List.getD, List.getElem?_eq_none (Nat.le_of_not_lt hi)]

theorem moves_takeEventLevels (f : Frame) (h : legalLevels f = true) (q : Req) (s : State) :
    Moves s (takeEventLevels f q s) := by
  unfold takeEventLevels changeEvents
  refine Moves.trans ?_ (moves_reply _ _ _)
  refine Moves.trans ?_ (Moves.onlyIf (fun _ => moves_noticeTest _))
  exact .one (.levels s (bodyByte f) (bodyByte_le_of_legalLevels h))

/-! ### LENDING RESET -/

theorem moves_resetHeld (s : State) : Moves s (resetHeld s) := by
  unfold resetHeld
  refine Moves.forEach (fun x u => ?_) s
  exact (moves_dropHeld x.1 u).trans (moves_replyReset x.2.req (dropHeld x.1 u))

/-- A release reply owed leaves its record. -/
theorem moves_dropOwed (slot : Nat) (s : State) :
    Moves s (updLoan slot (fun r => { r with releaseOwed := none }) s) := by
  refine moves_updLoan slot _ s ?_
  by_cases h : (s.loan slot).state = .free
  · exact .owesNone h rfl
  · exact .live h h rfl (.inl rfl)

theorem moves_resetLending (s : State) : Moves s (resetLending s) := by
  unfold resetLending
  refine Moves.step ?_ (.counts _)
  refine Moves.trans ?_ (Moves.forEachFree (fun x u => ?_) _)
  · refine Moves.trans ?_ (Moves.forEachFree moves_entryTest _)
    refine Moves.trans ?_ (Moves.forEachFree (fun b u =>
      (moves_updBay b _ u).andThen (moves_resetOwed _)) _)
    refine Moves.trans ?_ (Moves.forEachFree (fun b u => ?_) _)
    · refine Moves.trans ?_ (Moves.forEachFree (fun slot u =>
        (moves_dropOwed slot u).andThen (moves_resetOwed _)) _)
      refine Moves.trans ?_ (Moves.forEachFree (fun b u => moves_cancelWith _ moves_replyReset _ _ _ b _ u) _)
      exact (Moves.forEachFree (fun e u => Moves.forEach (fun c v =>
        (moves_dropEntry e c v).andThen (moves_replyReset _)) u) s).step (.tableWait _ _)
    · unfold resetInFlight
      split
      · next fl _ =>
        refine Moves.trans (Moves.trans (Moves.onlyIf (c := !fl.replySent) (fun _ => moves_replyReset fl.transfer.req u))
          (moves_updBay b (fun y => { y with inFlight := some { fl with replySent := true } }) _)) ?_
        split
        · unfold detach
          refine Moves.onlyIf (fun hl => moves_updLoan _ _ _ (.live (live_iff.1 hl).1 (by simp) rfl (.inl rfl)))
        · exact .refl _
      · exact .refl u
  · cases x
    · exact moves_endLoan _ _ _ u
    · unfold resetItem
      have : setWatches [] u = setWatches (u.watches.filter (fun _ => false)) u := by
        congr 1; simp
      dsimp only
      rw [this]
      exact .one (.unwatch u _)

theorem moves_lendingReset (q : Req) (s : State) : Moves s (lendingReset q s) := by
  unfold lendingReset
  refine Moves.trans (Moves.trans ((moves_setLoader _ s).trans (moves_resetOwed _ _))
    (Moves.forEachFree (fun x u => ?_) _)) (moves_reply _ _ _)
  cases x
  · exact moves_resetHeld u
  · exact moves_resetLending u

/-! ### Commands -/

/-- Every command answers a next state, and that state is reached by moves. -/
theorem moves_exec (i : Instr) (s : State) : ∃ t, exec i s = .next t ∧ Moves s t := by
  cases i <;> refine ⟨_, rfl, ?_⟩
  case claim p f => exact moves_ingress _ _ _ _ _ (fun _ => moves_unlessBarred _ (moves_claimFrom1 _ _ _ _)) s
  case renew p f =>
    exact moves_ingress _ _ _ _ _ (fun _ => moves_unlessBarred _ (fun q u =>
      moves_withHandle _ _ q u (fun h => moves_renewLoan _ q u (live_of_holds h)))) s
  case downgrade p f =>
    exact moves_ingress _ _ _ _ _ (fun _ => moves_unlessBarred _ (fun q u =>
      moves_withHandle _ _ q u (fun h => moves_downgradeLoan _ q u (live_of_holds h)))) s
  case release p f =>
    exact moves_ingress _ _ _ _ _ (fun _ => moves_unlessBarred _ (fun q u =>
      moves_withHandle _ _ q u (fun h => moves_releaseLoan _ q u (live_of_holds h)))) s
  case read p f =>
    exact moves_ingress _ _ _ _ _ (fun _ => moves_unlessBarred _ (fun q u =>
      moves_withHandle _ _ q u (fun _ => moves_transferFrom2 _ _ _ _ _ q u))) s
  case write p f =>
    exact moves_ingress _ _ _ _ _ (fun _ => moves_unlessBarred _ (fun q u =>
      moves_withHandle _ _ q u (fun _ => moves_transferFrom2 _ _ _ _ _ q u))) s
  case openRead p f => exact moves_ingress _ _ _ _ _ (fun _ => moves_unlessBarred _ (moves_openReadFrom1 _ _ _)) s
  case watch p f => exact moves_ingress _ _ _ _ _ (fun _ => moves_unlessBarred _ (moves_takeWatch _ _)) s
  case unwatch p f => exact moves_ingress _ _ _ _ _ (fun _ => moves_unlessBarred _ (moves_takeUnwatch _)) s
  case nodeStatus p f =>
    exact moves_ingress _ _ _ _ _ (fun _ => moves_unlessBarred _ (fun q u => moves_replyWith q _ _ u)) s
  case revokeLoan p f => exact moves_ingress _ _ _ _ _ (fun _ => moves_revokeLoan _) s
  case readLoan p f => exact moves_ingress _ _ _ _ _ (fun _ q u => moves_replyWith q _ _ u) s
  case readExtent p f =>
    refine moves_ingress _ _ _ _ _ (fun _ q u => ?_) s
    unfold readExtent; split
    · exact moves_reply _ _ u
    · exact moves_replyWith q _ _ u
  case openLoad p f => exact moves_ingress _ _ _ _ _ (fun _ => moves_openLoad) s
  case stageExtent p f => exact moves_ingress _ _ _ _ _ (fun h => moves_inOpen _ (moves_stageExtent _ _ (by
      simp only [legalStage, legalExtent, Bool.and_eq_true, decide_eq_true_eq] at h; omega))) s
  case unstageExtent p f => exact moves_ingress _ _ _ _ _ (fun _ => moves_inOpen _ (moves_unstageExtent _)) s
  case readStaged p f => exact moves_ingress _ _ _ _ _ (fun _ => moves_inOpen _ (fun q u _ => moves_readStaged _ q u)) s
  case commitLoad p f => exact moves_ingress _ _ _ _ _ (fun _ => moves_inOpen _ (fun q u _ => moves_commitLoad _ _ _ q u)) s
  case discardLoad p f => exact moves_ingress _ _ _ _ _ (fun _ => moves_discardLoad) s
  case serviceBay p f => exact moves_ingress _ _ _ _ _ (fun _ => moves_serviceBay _ _) s
  case serviceRead p f => exact moves_ingress _ _ _ _ _ (fun _ => moves_serviceTransfer _ _ _ _ _) s
  case serviceWrite p f => exact moves_ingress _ _ _ _ _ (fun _ => moves_serviceTransfer _ _ _ _ _) s
  case returnBay p f => exact moves_ingress _ _ _ _ _ (fun _ => moves_returnBay _) s
  case readBay p f => exact moves_ingress _ _ _ _ _ (fun _ q u => moves_replyWith q _ _ u) s
  case readWatches p f => exact moves_ingress _ _ _ _ _ (fun _ q u => moves_replyWith q _ _ u) s
  case setFence p f => exact moves_ingress _ _ _ _ _ (fun _ => moves_takeSetFence _ _) s
  case clearFenceHits p f =>
    exact moves_ingress _ _ _ _ _ (fun _ q u => (Moves.one (.fences u _)).andThen (moves_reply _ _)) s
  case readFences p f => exact moves_ingress _ _ _ _ _ (fun _ q u => moves_replyWith q _ _ u) s
  case listHeld p f => exact moves_ingress _ _ _ _ _ (fun _ q u => moves_replyWith q _ _ u) s
  case releaseHeld p f => exact moves_ingress _ _ _ _ _ (fun _ => moves_releaseHeld _ _ _) s
  case rejectHeld p f => exact moves_ingress _ _ _ _ _ (fun _ => moves_rejectHeld _ _ _) s
  case enrollNode p f => exact moves_ingress _ _ _ _ _ (fun _ => moves_enrollNode _ _ _ _) s
  case setNode p f => exact moves_ingress _ _ _ _ _ (fun _ => moves_takeSetNode _ _ _ _ _) s
  case barNode p f => exact moves_ingress _ _ _ _ _ (fun _ => moves_barNode _) s
  case unbarNode p f => exact moves_ingress _ _ _ _ _ (fun _ => moves_unbarNode _) s
  case removeNode p f => exact moves_ingress _ _ _ _ _ (fun _ => moves_removeNode _) s
  case readNode p f =>
    refine moves_ingress _ _ _ _ _ (fun _ q u => ?_) s
    unfold readNode; split
    · exact moves_reply _ _ u
    · exact moves_replyWith q _ _ u
  case setLeaseClass p f =>
    exact moves_ingress _ _ _ _ _ (fun _ q u =>
      (Moves.one (.clock u _)).andThen (fun v => moves_replyWith q _ _ v)) s
  case clockStop p f => exact moves_ingress _ _ _ _ _ (fun _ q u => (Moves.one (.clock u _)).andThen (moves_reply _ _)) s
  case clockRun p f => exact moves_ingress _ _ _ _ _ (fun _ q u => (Moves.one (.clock u _)).andThen (moves_reply _ _)) s
  case clockReset p f => exact moves_ingress _ _ _ _ _ (fun _ q u => (Moves.one (.clock u _)).andThen (moves_reply _ _)) s
  case readClock p f => exact moves_ingress _ _ _ _ _ (fun _ q u => moves_replyWith q _ _ u) s
  case setEventLevels p f => exact moves_ingress _ _ _ _ _ (fun h => moves_takeEventLevels f h) s
  case setMaskLevel p f =>
    exact moves_ingress _ _ _ _ _ (fun h => moves_changeMask _ (by simp [legalMask] at h; exact h.1)) s
  case clearEvents p f =>
    exact moves_ingress _ _ _ _ _ (fun _ q u => (Moves.one (.clearEvents u _)).andThen (moves_reply _ _)) s
  case readEvents p f => exact moves_ingress _ _ _ _ _ (fun _ q u => moves_replyWith q _ _ u) s
  case lendingReset p f => exact moves_ingress _ _ _ _ _ (fun _ => moves_lendingReset) s
  case portLinkDown p => exact Moves.onlyIf (fun _ => (Moves.one (.linkDown s p)).trans (Moves.forEach moves_discardReady _))
  case portLinkUp p => exact Moves.onlyIf (fun _ => (Moves.one (.linkUp s p)).andThen (moves_placeFree p))
  case frameLeaves p =>
    split
    · next up =>
      split
      · next x rest head => exact moves_headLeaves p x rest s up head
      · exact .refl s
    · exact .refl s
  case bayLinkDown b => exact Moves.onlyIf (fun _ => moves_loseBay _ s)
  case bayLinkUp b c => exact (Moves.onlyIf (fun _ => moves_loseBay _ s)).andThen (moves_presentBay _ _)
  case operationEndReport b seq o =>
    split
    · split
      · split
        · exact moves_succeedTransfer _ _ _ s
        · exact moves_endInFlight _ _ _ _ _ (fun s => .refl s) s
      · exact .refl s
    · exact .refl s
  case fullReset => exact .one (.fullReset s)
  case leaseTick =>
    dsimp only
    split
    · exact .one (.clock s _)
    · exact (Moves.one (.clock s _)).andThen (fun u => Moves.forEachFree (moves_ageBlock _) u)
  case transferTick => exact (Moves.one (.tickBays s)).andThen (fun u => Moves.forEachFree moves_timeOutTransfer u)
  case leaseExpiry slot =>
    refine Moves.onlyIf (fun _ => ?_)
    exact Moves.trans (Moves.trans (moves_expireLoan _ s) (Moves.onlyIf (fun _ => moves_reevaluate _ _)))
      (Moves.onlyIf (fun _ => moves_serveTableWait _))
  case claimWaitTimeout e =>
    exact Moves.onlyIf (fun _ => (moves_timeOutEntries _ _ s).andThen (moves_reevaluate _))
  case holdTimeout h => exact Moves.onlyIf (fun _ => moves_endHold _ _ s)
  case openTimeout => exact Moves.onlyIf (fun _ => moves_openTimeOut s)
  case drainLimitExpiry => exact Moves.onlyIf (fun _ => moves_expireDrainLimit s)
  case transferTimeout b => exact Moves.onlyIf (fun _ => moves_timeOutTransfer _ s)
  case checkCompletion => exact Moves.onlyIf (fun _ => moves_completeCheck s)
  case swap => exact moves_drainTest s
  case entryIntoService b => exact moves_entryTest _ s
  case issue b => exact moves_issueTest _ s
  case loanEnd slot => exact Moves.onlyIf (fun _ => moves_endLoan _ _ _ s)
  case grantFromQueue e =>
    split
    · split
      · exact moves_reevaluate _ s
      · exact moves_reevaluate _ s
      · exact .refl s
    · exact .refl s
  case conversion e =>
    split
    · split
      · refine (Moves.onlyIf (fun h => ?_)).andThen (moves_tidyWait _)
        simp only [Bool.and_eq_true] at h
        exact moves_convertHead _ _ _ s h.1
      · exact .refl s
      · exact .refl s
    · exact .refl s
  case eventNotice => exact moves_noticeOnce s
  case malformedFrame p payload => exact Moves.onlyIf (fun _ => moves_raise _ _ s)
  case unknownCodeFrame p code f => exact moves_ingress _ _ _ _ _ (fun _ q u => .refl u) s

end Sys2Proof.Machine
end

