-- ==== Sys2Proof/Laws/PerInstr.lean ====
section
/-! SUPPORT. Per command: a well-formed frame command is the row that its own code spells (R152). -/

namespace Sys2Proof.Laws

set_option Elab.async false

/-- A frame command's code leads back to its row; of the commands that are no frame nothing is said. -/
def FrameRow.Statement (i : Instr) : Prop :=
  ∀ (p : PortId) (code : BitVec 8) (f : Frame),
    i.wellFormed = true → i.asFrame = some (p, code, f) → requestOf p code f = i

theorem FrameRow.claim (p : PortId) (f : Frame) : FrameRow.Statement (.claim p f) := by
  intro _ _ _ _ h; cases h; rfl

theorem FrameRow.renew (p : PortId) (f : Frame) : FrameRow.Statement (.renew p f) := by
  intro _ _ _ _ h; cases h; rfl

theorem FrameRow.downgrade (p : PortId) (f : Frame) : FrameRow.Statement (.downgrade p f) := by
  intro _ _ _ _ h; cases h; rfl

theorem FrameRow.release (p : PortId) (f : Frame) : FrameRow.Statement (.release p f) := by
  intro _ _ _ _ h; cases h; rfl

theorem FrameRow.read (p : PortId) (f : Frame) : FrameRow.Statement (.read p f) := by
  intro _ _ _ _ h; cases h; rfl

theorem FrameRow.write (p : PortId) (f : Frame) : FrameRow.Statement (.write p f) := by
  intro _ _ _ _ h; cases h; rfl

theorem FrameRow.openRead (p : PortId) (f : Frame) : FrameRow.Statement (.openRead p f) := by
  intro _ _ _ _ h; cases h; rfl

theorem FrameRow.watch (p : PortId) (f : Frame) : FrameRow.Statement (.watch p f) := by
  intro _ _ _ _ h; cases h; rfl

theorem FrameRow.unwatch (p : PortId) (f : Frame) : FrameRow.Statement (.unwatch p f) := by
  intro _ _ _ _ h; cases h; rfl

theorem FrameRow.nodeStatus (p : PortId) (f : Frame) : FrameRow.Statement (.nodeStatus p f) := by
  intro _ _ _ _ h; cases h; rfl

theorem FrameRow.revokeLoan (p : PortId) (f : Frame) : FrameRow.Statement (.revokeLoan p f) := by
  intro _ _ _ _ h; cases h; rfl

theorem FrameRow.readLoan (p : PortId) (f : Frame) : FrameRow.Statement (.readLoan p f) := by
  intro _ _ _ _ h; cases h; rfl

theorem FrameRow.readExtent (p : PortId) (f : Frame) : FrameRow.Statement (.readExtent p f) := by
  intro _ _ _ _ h; cases h; rfl

theorem FrameRow.openLoad (p : PortId) (f : Frame) : FrameRow.Statement (.openLoad p f) := by
  intro _ _ _ _ h; cases h; rfl

theorem FrameRow.stageExtent (p : PortId) (f : Frame) : FrameRow.Statement (.stageExtent p f) := by
  intro _ _ _ _ h; cases h; rfl

theorem FrameRow.unstageExtent (p : PortId) (f : Frame) : FrameRow.Statement (.unstageExtent p f) := by
  intro _ _ _ _ h; cases h; rfl

theorem FrameRow.readStaged (p : PortId) (f : Frame) : FrameRow.Statement (.readStaged p f) := by
  intro _ _ _ _ h; cases h; rfl

theorem FrameRow.commitLoad (p : PortId) (f : Frame) : FrameRow.Statement (.commitLoad p f) := by
  intro _ _ _ _ h; cases h; rfl

theorem FrameRow.discardLoad (p : PortId) (f : Frame) : FrameRow.Statement (.discardLoad p f) := by
  intro _ _ _ _ h; cases h; rfl

theorem FrameRow.serviceBay (p : PortId) (f : Frame) : FrameRow.Statement (.serviceBay p f) := by
  intro _ _ _ _ h; cases h; rfl

theorem FrameRow.serviceRead (p : PortId) (f : Frame) : FrameRow.Statement (.serviceRead p f) := by
  intro _ _ _ _ h; cases h; rfl

theorem FrameRow.serviceWrite (p : PortId) (f : Frame) : FrameRow.Statement (.serviceWrite p f) := by
  intro _ _ _ _ h; cases h; rfl

theorem FrameRow.returnBay (p : PortId) (f : Frame) : FrameRow.Statement (.returnBay p f) := by
  intro _ _ _ _ h; cases h; rfl

theorem FrameRow.readBay (p : PortId) (f : Frame) : FrameRow.Statement (.readBay p f) := by
  intro _ _ _ _ h; cases h; rfl

theorem FrameRow.readWatches (p : PortId) (f : Frame) : FrameRow.Statement (.readWatches p f) := by
  intro _ _ _ _ h; cases h; rfl

theorem FrameRow.setFence (p : PortId) (f : Frame) : FrameRow.Statement (.setFence p f) := by
  intro _ _ _ _ h; cases h; rfl

theorem FrameRow.clearFenceHits (p : PortId) (f : Frame) : FrameRow.Statement (.clearFenceHits p f) := by
  intro _ _ _ _ h; cases h; rfl

theorem FrameRow.readFences (p : PortId) (f : Frame) : FrameRow.Statement (.readFences p f) := by
  intro _ _ _ _ h; cases h; rfl

theorem FrameRow.listHeld (p : PortId) (f : Frame) : FrameRow.Statement (.listHeld p f) := by
  intro _ _ _ _ h; cases h; rfl

theorem FrameRow.releaseHeld (p : PortId) (f : Frame) : FrameRow.Statement (.releaseHeld p f) := by
  intro _ _ _ _ h; cases h; rfl

theorem FrameRow.rejectHeld (p : PortId) (f : Frame) : FrameRow.Statement (.rejectHeld p f) := by
  intro _ _ _ _ h; cases h; rfl

theorem FrameRow.enrollNode (p : PortId) (f : Frame) : FrameRow.Statement (.enrollNode p f) := by
  intro _ _ _ _ h; cases h; rfl

theorem FrameRow.setNode (p : PortId) (f : Frame) : FrameRow.Statement (.setNode p f) := by
  intro _ _ _ _ h; cases h; rfl

theorem FrameRow.barNode (p : PortId) (f : Frame) : FrameRow.Statement (.barNode p f) := by
  intro _ _ _ _ h; cases h; rfl

theorem FrameRow.unbarNode (p : PortId) (f : Frame) : FrameRow.Statement (.unbarNode p f) := by
  intro _ _ _ _ h; cases h; rfl

theorem FrameRow.removeNode (p : PortId) (f : Frame) : FrameRow.Statement (.removeNode p f) := by
  intro _ _ _ _ h; cases h; rfl

theorem FrameRow.readNode (p : PortId) (f : Frame) : FrameRow.Statement (.readNode p f) := by
  intro _ _ _ _ h; cases h; rfl

theorem FrameRow.setLeaseClass (p : PortId) (f : Frame) : FrameRow.Statement (.setLeaseClass p f) := by
  intro _ _ _ _ h; cases h; rfl

theorem FrameRow.clockStop (p : PortId) (f : Frame) : FrameRow.Statement (.clockStop p f) := by
  intro _ _ _ _ h; cases h; rfl

theorem FrameRow.clockRun (p : PortId) (f : Frame) : FrameRow.Statement (.clockRun p f) := by
  intro _ _ _ _ h; cases h; rfl

theorem FrameRow.clockReset (p : PortId) (f : Frame) : FrameRow.Statement (.clockReset p f) := by
  intro _ _ _ _ h; cases h; rfl

theorem FrameRow.readClock (p : PortId) (f : Frame) : FrameRow.Statement (.readClock p f) := by
  intro _ _ _ _ h; cases h; rfl

theorem FrameRow.setEventLevels (p : PortId) (f : Frame) : FrameRow.Statement (.setEventLevels p f) := by
  intro _ _ _ _ h; cases h; rfl

theorem FrameRow.setMaskLevel (p : PortId) (f : Frame) : FrameRow.Statement (.setMaskLevel p f) := by
  intro _ _ _ _ h; cases h; rfl

theorem FrameRow.clearEvents (p : PortId) (f : Frame) : FrameRow.Statement (.clearEvents p f) := by
  intro _ _ _ _ h; cases h; rfl

theorem FrameRow.readEvents (p : PortId) (f : Frame) : FrameRow.Statement (.readEvents p f) := by
  intro _ _ _ _ h; cases h; rfl

theorem FrameRow.lendingReset (p : PortId) (f : Frame) : FrameRow.Statement (.lendingReset p f) := by
  intro _ _ _ _ h; cases h; rfl

theorem FrameRow.portLinkDown (p : PortId) : FrameRow.Statement (.portLinkDown p) := by
  intro _ _ _ _ h; cases h

theorem FrameRow.portLinkUp (p : PortId) : FrameRow.Statement (.portLinkUp p) := by
  intro _ _ _ _ h; cases h

theorem FrameRow.frameLeaves (p : PortId) : FrameRow.Statement (.frameLeaves p) := by
  intro _ _ _ _ h; cases h

theorem FrameRow.bayLinkDown (b : BayId) : FrameRow.Statement (.bayLinkDown b) := by
  intro _ _ _ _ h; cases h

theorem FrameRow.bayLinkUp (b : BayId) (capacity : Nat) : FrameRow.Statement (.bayLinkUp b capacity) := by
  intro _ _ _ _ h; cases h

theorem FrameRow.operationEndReport (b : BayId) (seq : BitVec 16) (o : DiskOutcome) : FrameRow.Statement (.operationEndReport b seq o) := by
  intro _ _ _ _ h; cases h

theorem FrameRow.fullReset : FrameRow.Statement .fullReset := by
  intro _ _ _ _ h; cases h

theorem FrameRow.leaseTick : FrameRow.Statement .leaseTick := by
  intro _ _ _ _ h; cases h

theorem FrameRow.transferTick : FrameRow.Statement .transferTick := by
  intro _ _ _ _ h; cases h

theorem FrameRow.leaseExpiry (slot : Fin 8192) : FrameRow.Statement (.leaseExpiry slot) := by
  intro _ _ _ _ h; cases h

theorem FrameRow.claimWaitTimeout (e : Fin 4096) : FrameRow.Statement (.claimWaitTimeout e) := by
  intro _ _ _ _ h; cases h

theorem FrameRow.holdTimeout (h : Fin 16) : FrameRow.Statement (.holdTimeout h) := by
  intro _ _ _ _ h; cases h

theorem FrameRow.openTimeout : FrameRow.Statement .openTimeout := by
  intro _ _ _ _ h; cases h

theorem FrameRow.drainLimitExpiry : FrameRow.Statement .drainLimitExpiry := by
  intro _ _ _ _ h; cases h

theorem FrameRow.transferTimeout (b : BayId) : FrameRow.Statement (.transferTimeout b) := by
  intro _ _ _ _ h; cases h

theorem FrameRow.checkCompletion : FrameRow.Statement .checkCompletion := by
  intro _ _ _ _ h; cases h

theorem FrameRow.swap : FrameRow.Statement .swap := by
  intro _ _ _ _ h; cases h

theorem FrameRow.entryIntoService (b : BayId) : FrameRow.Statement (.entryIntoService b) := by
  intro _ _ _ _ h; cases h

theorem FrameRow.issue (b : BayId) : FrameRow.Statement (.issue b) := by
  intro _ _ _ _ h; cases h

theorem FrameRow.loanEnd (slot : Fin 8192) : FrameRow.Statement (.loanEnd slot) := by
  intro _ _ _ _ h; cases h

theorem FrameRow.grantFromQueue (e : Fin 4096) : FrameRow.Statement (.grantFromQueue e) := by
  intro _ _ _ _ h; cases h

theorem FrameRow.conversion (e : Fin 4096) : FrameRow.Statement (.conversion e) := by
  intro _ _ _ _ h; cases h

theorem FrameRow.eventNotice : FrameRow.Statement .eventNotice := by
  intro _ _ _ _ h; cases h

theorem FrameRow.malformedFrame (p : PortId) (payload : List Byte) : FrameRow.Statement (.malformedFrame p payload) := by
  intro _ _ _ _ h; cases h

theorem FrameRow.unknownCodeFrame (p : PortId) (code : BitVec 8) (f : Frame) : FrameRow.Statement (.unknownCodeFrame p code f) := by
  intro _ _ _ wf h
  cases h
  simp [Instr.wellFormed, Machine.knownCode] at wf
  unfold requestOf
  split <;> first | rfl | (exfalso; omega)

end Sys2Proof.Laws
end

