-- ==== Sys2Proof/Laws/Requests.lean ====
section
/-! SUPPORT. What the notice test, admission, a reply and ingress do, said once: a request whose frame is `Taken` runs
its block's part on the admitted state, and its reply makes it `Done`; what joining a bay's queue and the issue test
do. -/

namespace Sys2Proof.Machine

/-! ### Frames of blocks -/

theorem OnlyChanges.refl (bs : List Block) (s : State) : OnlyChanges bs s s := by
  intro b _; cases b <;> rfl

theorem OnlyChanges.trans {bs : List Block} {s t u : State} (h : OnlyChanges bs s t) (k : OnlyChanges bs t u) :
    OnlyChanges bs s u := by
  intro b hb
  have h1 := h b hb
  have h2 := k b hb
  cases b <;> exact Eq.trans h2 h1

theorem OnlyChanges.mono {bs cs : List Block} {s t : State} (h : OnlyChanges bs s t) (sub : ∀ b ∈ bs, b ∈ cs) :
    OnlyChanges cs s t := fun b hb => h b (fun m => hb (sub b m))

/-! ### Looking a node up -/

theorem authority_isAuthority {s : State} {n : Nat} {r : NodeRec} (rise : s.roster.rising = true)
    (h : s.authority = some (n, r)) : s.node n = some r ∧ r.role = .authority := by
  have hm := List.mem_of_find?_eq_some h
  have hp := List.find?_some h
  exact ⟨Tab.look_of_mem rise hm, by simpa using hp⟩

theorem authority_of_isAuthority {s : State} {n : Nat} (one : s.oneAuthority) (h : s.isAuthority n = true) :
    ∃ r, s.authority = some (n, r) ∧ s.node n = some r := by
  obtain ⟨rise, m, hm⟩ := one
  cases ha : s.authority with
  | none =>
    unfold State.isAuthority at h
    split at h
    · next r hr =>
      have := List.find?_eq_none.1 ha _ (Tab.mem_of_look hr)
      simp_all
    · cases h
  | some x =>
    obtain ⟨k, r⟩ := x
    obtain ⟨hk, hr⟩ := authority_isAuthority rise ha
    have : s.isAuthority k = true := by simp [State.isAuthority, hk, hr]
    have e1 := (hm k).1 this
    have e2 := (hm n).1 h
    subst e2; subst e1
    exact ⟨r, rfl, hk⟩

/-! ### The notice test -/

/-- What a notice test does when the authority's learned port is `p`: EVENT notices join that port's list and the
records they report are marked. -/
structure NoticesAt (p : PortId) (s t : State) : Prop where
  others : ∀ q, q ≠ p → t.port q = s.port q
  here : ∃ ns : List OutFrame, (∀ n ∈ ns, n.notice = true ∧ n.code = 99) ∧
    t.port p = { s.port p with
      notices := (s.port p).notices + ns.length
      egress := (s.port p).egress ++ ns.map (fun n => (⟨n, false⟩ : Ready)) }
  marks : NoticedOnly s t
  only : OnlyChanges [.ports, .events] s t

theorem NoticedOnly.refl (s : State) : NoticedOnly s s := ⟨rfl, fun k => ⟨false, by simp⟩⟩

theorem NoticedOnly.trans {s t u : State} (h : NoticedOnly s t) (k : NoticedOnly t u) : NoticedOnly s u := by
  refine ⟨k.1.trans h.1, fun i => ?_⟩
  obtain ⟨a, ha⟩ := h.2 i
  obtain ⟨b, hb⟩ := k.2 i
  exact ⟨a || b, by rw [hb, ha]; simp [Bool.or_assoc]⟩

theorem NoticedOnly.of_events {s t : State} (h : t.events = s.events) : NoticedOnly s t := by
  refine ⟨by rw [h], fun k => ⟨false, ?_⟩⟩
  simp [State.event, h]

theorem NoticesAt.refl (p : PortId) (s : State) : NoticesAt p s s :=
  ⟨fun _ _ => rfl, ⟨[], by simp, by simp⟩, .refl s, .refl _ s⟩

theorem NoticesAt.trans {p : PortId} {s t u : State} (h : NoticesAt p s t) (k : NoticesAt p t u) : NoticesAt p s u := by
  obtain ⟨ns, hn, hp⟩ := h.here
  obtain ⟨ms, km, kp⟩ := k.here
  refine ⟨fun q hq => (k.others q hq).trans (h.others q hq), ⟨ns ++ ms, ?_, ?_⟩, h.marks.trans k.marks, h.only.trans k.only⟩
  · intro n hn'
    rcases List.mem_append.1 hn' with h' | h'
    · exact hn n h'
    · exact km n h'
  · rw [kp, hp]
    simp [Nat.add_assoc]

theorem noticesAt_make (n : Nat) (p : PortId) (k : Nat) (s : State) (hk : k < 16) : NoticesAt p s (makeEventNotice n p k s) := by
  unfold makeEventNotice
  refine ⟨fun q hq => ?_, ⟨[{ noticeFrame 99 n with
        argA := k, argB := (s.event k).level, body := [eventItem k { s.event k with noticed := true }] }], ?_, ?_⟩, ⟨rfl, fun i => ?_⟩, ?_⟩
  · simp [pushNotice, port_setPort, hq]
  · simp [noticeFrame]
  · simp [pushNotice]
  · refine ⟨decide (i = k), ?_⟩
    have : (pushNotice p { noticeFrame 99 n with
        argA := k, argB := (s.event k).level, body := [eventItem k { s.event k with noticed := true }] }
        (setEvent k { s.event k with noticed := true } s)).event i = (setEvent k { s.event k with noticed := true } s).event i := by simp
    rw [this, event_setEvent _ _ _ _ hk]
    split
    · next e => subst e; simp
    · next e => simp [e]
  · intro b hb; cases b <;> simp_all [Block.same]

theorem num_of_firstQualifying {s : State} {k : Nat} (h : s.firstQualifying = some k) : k < 16 :=
  List.mem_range.1 (List.mem_of_find?_eq_some h)

/-- Without a learned port of the authority, a notice test changes nothing. -/
theorem noticeOnce_idle {s : State} (h : ∀ n r, s.authority = some (n, r) → r.learned = none) : noticeOnce s = s := by
  unfold noticeOnce
  split
  · next n r ha => rw [h n r ha]
  · rfl

theorem noticeOnce_at {s : State} {n : Nat} {r : NodeRec} {p : PortId} (ha : s.authority = some (n, r))
    (hl : r.learned = some p) : NoticesAt p s (noticeOnce s) := by
  unfold noticeOnce
  simp only [ha, hl]
  split
  · split
    · next k hk => exact noticesAt_make n p k s (num_of_firstQualifying hk)
    · exact .refl p s
  · exact .refl p s

theorem authority_congr {s t : State} (h : t.roster = s.roster) : t.authority = s.authority := by
  unfold State.authority; rw [h]

/-- The notice test with the authority's learned port `p` (R167). -/
theorem noticeTest_at {s : State} {n : Nat} {r : NodeRec} {p : PortId} (ha : s.authority = some (n, r))
    (hl : r.learned = some p) : NoticesAt p s (noticeTest s) := by
  have main : ∀ k, NoticesAt p s (Nat.repeat noticeOnce k s) := by
    intro k
    induction k with
    | zero => exact .refl p s
    | succ k ih =>
      have ha' : (Nat.repeat noticeOnce k s).authority = some (n, r) := by
        rw [authority_congr (repeat_keeps (fun u => u.roster) noticeOnce_roster k s)]; exact ha
      exact ih.trans (noticeOnce_at ha' hl)
  exact main 16

/-! ### Admission -/

theorem ingress_taken {s : State} {p : PortId} {code : Nat} {f : Frame} {legal : Bool} (take : Req → State → State)
    (h : Taken s p code f legal) :
    ingress p code f legal take s = take (s.reqOf p code f) (s.admitted p code f) := by
  obtain ⟨up, room, ok⟩ := h
  unfold ingress
  rw [if_pos up, if_neg (by simp only [Config.replyPlaces]; omega), ok]
  rfl

theorem record_of_taken {s : State} {p : PortId} {code : Nat} {f : Frame} {legal : Bool}
    (h : Taken s p code f legal) : ∃ r, s.node f.node.toNat = some r ∧ r.state ≠ .barred
      ∧ r.tags.getLsbD f.tag.toNat = false ∧ (isRenderCode code = false → r.role = .authority)
      ∧ (isRenderCode code = true → r.role = .render) ∧ legalHeader f = true ∧ legal = true := by
  obtain ⟨_, _, ok⟩ := h
  unfold State.ingressRefusal at ok
  split at ok
  · cases ok
  · next r hr =>
    refine ⟨r, hr, ?_⟩
    repeat (split at ok; · cases ok)
    simp_all

theorem node_admitted {s : State} {p : PortId} {code : Nat} {f : Frame} (n : Nat) :
    (s.admitted p code f).node n = s.nodeAfter p f n := by
  unfold State.admitted admitReq
  rw [onlyIf_keeps (fun u => u.node n) (noticeTest_node _ n)]
  rw [node_updNode]
  unfold State.nodeAfter
  have : (takeReservation p s).node = s.node := by funext m; simp
  simp only [this, State.reqOf]
  by_cases e : n = f.node.toNat
  · subst e; rfl
  · rw [if_neg e, if_neg e]

/-- A render request is admitted without a notice test. -/
theorem admitted_render {s : State} {p : PortId} {code : Nat} {f : Frame} {legal : Bool} (h : Taken s p code f legal)
    (render : isRenderCode code = true) :
    s.admitted p code f = updNode f.node.toNat (fun r => r.admitted (s.reqOf p code f)) (takeReservation p s) := by
  obtain ⟨r, hr, _, _, _, role, _⟩ := record_of_taken h
  unfold State.admitted admitReq
  have : (takeReservation p s).isAuthority (s.reqOf p code f).node = false := by
    unfold State.isAuthority
    simp [State.reqOf, hr, role render]
  rw [this]
  rfl

theorem isAuthority_eq {s : State} {n : Nat} : s.isAuthority n = true ↔ ∃ r, s.node n = some r ∧ r.role = .authority := by
  unfold State.isAuthority
  cases h : s.node n <;> simp

/-- What admission leaves (R140, R159, R167): the reservation is taken, the sender's record is as R140 says, and
the rest is as it was but for EVENT notices let go at the arrival port. -/
theorem admitted_spec {s : State} {p : PortId} {code : Nat} {f : Frame} {legal : Bool} (h : Taken s p code f legal)
    (one : isRenderCode code = true ∨ s.oneAuthority) :
    Unanswered s (s.admitted p code f) p ∧ NoticedOnly s (s.admitted p code f)
      ∧ OnlyChanges [.ports, .roster, .events] s (s.admitted p code f) := by
  by_cases hr : isRenderCode code = true
  · rw [admitted_render h hr]
    refine ⟨⟨fun q hq => ?_, ⟨[], by simp, ?_⟩⟩, .of_events (by simp), ?_⟩
    · simp [takeReservation, port_setPort, hq]
    · simp [takeReservation]
    · intro b hb; cases b <;> simp_all [Block.same]
  · have one := one.resolve_left hr
    obtain ⟨r, hn, _, _, role, _⟩ := record_of_taken h
    have role := role (by simpa using hr)
    have isA : s.isAuthority f.node.toNat = true := isAuthority_eq.2 ⟨r, hn, role⟩
    obtain ⟨r0, ha, hn0⟩ := authority_of_isAuthority one isA
    obtain ⟨u, hudef⟩ : ∃ u, u = updNode f.node.toNat (fun r => r.admitted (s.reqOf p code f)) (takeReservation p s) :=
      ⟨_, rfl⟩
    have hu : u.node f.node.toNat = some (r.admitted (s.reqOf p code f)) := by
      rw [hudef, node_updNode]; simp [hn]
    have oneU : u.oneAuthority := by
      refine ⟨?_, f.node.toNat, fun m => ?_⟩
      · rw [hudef]
        unfold updNode
        split
        · exact Tab.rising_put _ _ one.1
        · exact one.1
      · constructor
        · intro hm
          obtain ⟨x, hx, hrole⟩ := isAuthority_eq.1 hm
          by_cases e : m = f.node.toNat
          · exact e
          · have : s.node m = some x := by
              have := hx
              rw [hudef, node_updNode, if_neg e] at this
              simpa using this
            obtain ⟨k, hk⟩ := one.2
            exact ((hk m).1 (isAuthority_eq.2 ⟨x, this, hrole⟩)).trans ((hk _).1 isA).symm
        · intro e; subst e
          exact isAuthority_eq.2 ⟨_, hu, role⟩
    obtain ⟨r1, ha1, hn1⟩ := authority_of_isAuthority oneU (isAuthority_eq.2 ⟨_, hu, role⟩)
    have hr1 : r1 = r.admitted (s.reqOf p code f) := by rw [hu] at hn1; exact (Option.some.inj hn1).symm
    have N := noticeTest_at ha1 (by rw [hr1]; rfl : r1.learned = some p)
    have eq : s.admitted p code f = noticeTest u := by
      have isB : (takeReservation p s).isAuthority (s.reqOf p code f).node = true :=
        isAuthority_eq.2 ⟨r, (takeReservation_node s p _).trans hn, role⟩
      unfold State.admitted admitReq
      rw [isB, onlyIf_true, hudef]
      rfl
    rw [eq]
    obtain ⟨ns, hns, hp⟩ := N.here
    refine ⟨⟨fun q hq => ?_, ⟨ns, hns, ?_⟩⟩, ?_, ?_⟩
    · rw [N.others q hq, hudef]
      simp [takeReservation, port_setPort, hq]
    · rw [hp]
      have : u.port p = { s.port p with reservations := (s.port p).reservations + 1 } := by
        rw [hudef]
        simp [takeReservation]
      rw [this]
    · exact (NoticedOnly.of_events (show u.events = s.events by rw [hudef]; simp)).trans N.marks
    · have m := N.only.mono (cs := [.ports, .roster, .events]) (by simp)
      refine OnlyChanges.trans ?_ m
      intro b hb
      rw [hudef]
      cases b <;> simp_all [Block.same]

theorem up_admitted {s : State} {p : PortId} {code : Nat} {f : Frame} {legal : Bool} (h : Taken s p code f legal)
    (one : isRenderCode code = true ∨ s.oneAuthority) :
    ((s.admitted p code f).port p).up = true ∧ ((s.admitted p code f).port p).round = (s.port p).round := by
  obtain ⟨⟨_, ns, _, hp⟩, _⟩ := admitted_spec h one
  rw [hp]; exact ⟨h.1, rfl⟩

/-! ### Replies -/

/-- A reply on a port that is UP in the round of the reservation joins that port's list (R161). -/
theorem replyWith_up {q : Req} {st : Status} {fields : OutFrame → OutFrame} {s : State}
    (up : (s.port q.port).up = true) (round : q.round = (s.port q.port).round) :
    replyWith q st fields s = pushReady q.port ⟨fields (replyFrame s q st), true⟩ s := by
  unfold replyWith emit
  rw [if_pos (by simp [up, round])]

/-- A request that is taken, changes the listed blocks and then replies, is done. -/
theorem done_of_reply {s u : State} {p : PortId} {code : Nat} {f : Frame} {legal : Bool} {st : Status}
    {fields : OutFrame → OutFrame} {bs : List Block} (h : Taken s p code f legal)
    (one : isRenderCode code = true ∨ s.oneAuthority)
    (ports : u.ports = (s.admitted p code f).ports) (roster : u.roster = (s.admitted p code f).roster)
    (events : u.events = (s.admitted p code f).events)
    (only : OnlyChanges (.ports :: .roster :: .events :: bs) (s.admitted p code f) u) :
    Done s (replyWith (s.reqOf p code f) st fields u) p f (fields (replyFrame u (s.reqOf p code f) st)) bs := by
  obtain ⟨⟨others, ns, hns, hp⟩, marks, only0⟩ := admitted_spec h one
  obtain ⟨up, round⟩ := up_admitted h one
  have hport : ∀ q, u.port q = (s.admitted p code f).port q := fun q => by unfold State.port; rw [ports]
  rw [replyWith_up (q := s.reqOf p code f) (by rw [hport]; exact up) (by rw [hport]; exact round.symm)]
  refine ⟨⟨fun q hq => ?_, ns, hns, ?_⟩, fun n => ?_, ?_, ?_⟩
  · show (setPort p _ u).port q = _
    rw [port_setPort, if_neg hq, hport, others q hq]
  · show (setPort p _ u).port p = _
    rw [port_setPort_same, hport, show (s.reqOf p code f).port = p from rfl, hp]
  · rw [← node_admitted (code := code)]
    simp only [State.node, pushReady_roster, roster]
  · refine marks.trans (.of_events ?_)
    rw [pushReady_events, events]
  · refine (only0.mono (by simp)).trans (only.trans ?_)
    intro b hb
    cases b <;> simp_all [Block.same]

/-- The same with no other change. -/
theorem done_of_reply_only {s : State} {p : PortId} {code : Nat} {f : Frame} {legal : Bool} {st : Status}
    {fields : OutFrame → OutFrame} (h : Taken s p code f legal) (one : isRenderCode code = true ∨ s.oneAuthority) :
    Done s (replyWith (s.reqOf p code f) st fields (s.admitted p code f)) p f
      (fields (replyFrame (s.admitted p code f) (s.reqOf p code f) st)) [] :=
  done_of_reply h one rfl rfl rfl (.refl _ _)

/-! ### Bay queues and claim queues -/

/-- What R70 puts in flight, written out by the transfer's kind. -/
theorem issued_eq_justIssued (x : Transfer) (seq : BitVec 16) : x.issued seq = justIssued x seq := by
  obtain ⟨k, _, _, _, _, _, _⟩ := x
  cases k <;> rfl

/-- A bay with a transfer in flight, or with nothing queued, issues nothing. -/
theorem issueTest_idle {b : Nat} {s : State} (h : (s.bay b).inFlight ≠ none ∨ (s.bay b).queue = []) :
    issueTest b s = s := by
  unfold issueTest
  split
  · next f q => rcases h with h | h <;> simp_all
  · rfl

/-- A bay that issues, with nothing in flight, issues the head of its queue. -/
theorem issueTest_head {b : Nat} {s : State} {x : Transfer} {rest : List Transfer} (f : (s.bay b).inFlight = none)
    (q : (s.bay b).queue = x :: rest) (i : (s.bay b).state.issues = true) :
    issueTest b s = updBay b (fun y => { y with
      queue := rest, seq := y.seq + 1, inFlight := some (justIssued x (y.seq + 1)) }) s := by
  unfold issueTest
  rw [f, q]
  simp only [i, if_true, issued_eq_justIssued]

/-- A transfer joins a bay of the switch that issues: `BayJoined` says all that becomes of the bays. -/
theorem joinBay_joined {b : Nat} (x : Transfer) {s : State} (hb : b < 24) (i : (s.bay b).state.issues = true) :
    BayJoined s (joinBay b x s) b x := by
  have here : (updBay b (fun y => { y with queue := y.queue ++ [x] }) s).bay b
      = { s.bay b with queue := (s.bay b).queue ++ [x] } := by simp [bay_updBay _ _ _ _ hb]
  unfold joinBay onlyIf
  by_cases q : (s.bay b).queue = []
  · have e : (s.bay b).queue.isEmpty = true := by simp [q]
    rw [if_pos e]
    by_cases f : (s.bay b).inFlight = none
    · rw [issueTest_head (x := x) (rest := []) (by rw [here]; exact f) (by rw [here]; simp [q]) (by rw [here]; exact i)]
      refine ⟨fun c hc => by simp [bay_updBay _ _ _ _ hb, hc], ?_⟩
      rw [if_pos ⟨q, f⟩]
      simp [bay_updBay _ _ _ _ hb, q]
    · rw [issueTest_idle (.inl (by rw [here]; exact f))]
      refine ⟨fun c hc => by simp [bay_updBay _ _ _ _ hb, hc], ?_⟩
      rw [if_neg (fun h => f h.2), here]
  · have e : (s.bay b).queue.isEmpty = false := by simpa using q
    rw [e]
    simp only [Bool.false_eq_true, if_false]
    refine ⟨fun c hc => by simp [bay_updBay _ _ _ _ hb, hc], ?_⟩
    rw [if_neg (fun h => q h.1), here]

/-- With no entry due nothing times out. -/
theorem timeOutEntries_nil (e : Nat) (s : State) : timeOutEntries e [] s = s := rfl

/-- One due entry leaves its queue and is refused. -/
theorem timeOutEntries_one (e : Nat) (c : ClaimEntry) (s : State) :
    timeOutEntries e [c] s = timeOutEntry e c (dropEntry e c s) := rfl

end Sys2Proof.Machine
end

