-- ==== Sys2Proof/Laws/Spelled.lean ====
section
/-! SUPPORT. How bytes spell fields: what `beBytes` writes is read back by `valueOf`, and runs of fields compose. -/

namespace Sys2Proof.Machine

theorem length_beBytes (n v : Nat) : (beBytes n v).length = n := by
  induction n with
  | zero => rfl
  | succ n ih => simp [beBytes, ih]

theorem valueOf_beBytes (n v : Nat) : valueOf (beBytes n v) = v % 256 ^ n := by
  induction n with
  | zero => simp [beBytes, valueOf, Nat.mod_one]
  | succ n ih =>
    have h : (BitVec.ofNat 8 (v / 256 ^ n)).toNat = v / 256 ^ n % 256 := BitVec.toNat_ofNat ..
    rw [beBytes, valueOf, ih, length_beBytes, h, Nat.mod_pow_succ, Nat.mul_comm, Nat.add_comm]

/-- A field written with `beBytes`, and what follows it. -/
theorem spells_beBytes {n v : Nat} {bs : List Byte} {fs : List (Nat × Nat)} (h : Spells bs fs) :
    Spells (beBytes n v ++ bs) ((n, v) :: fs) := by
  refine ⟨by simp [length_beBytes], ?_, ?_⟩
  · rw [List.take_left' (length_beBytes n v)]; exact valueOf_beBytes n v
  · rw [List.drop_left' (length_beBytes n v)]; exact h

theorem spells_one (n v : Nat) : Spells (beBytes n v) [(n, v)] := by
  have h : Spells [] [] := rfl
  simpa using spells_beBytes (n := n) (v := v) h

theorem spells_append {a b : List Byte} {fs gs : List (Nat × Nat)} (h : Spells a fs) (k : Spells b gs) :
    Spells (a ++ b) (fs ++ gs) := by
  induction fs generalizing a with
  | nil => simp only [Spells] at h; subst h; simpa using k
  | cons f fs ih =>
    obtain ⟨n, v⟩ := f
    obtain ⟨h1, h2, h3⟩ := h
    refine ⟨by simp; omega, ?_, ?_⟩
    · rw [List.take_append_of_le_length h1]; exact h2
    · rw [List.drop_append_of_le_length h1]; exact ih h3

theorem spells_byte (b : Byte) : Spells [b] [(1, b.toNat)] := by
  have := b.isLt
  exact ⟨by simp, by simp [valueOf]; omega, rfl⟩

theorem spells_bytes (bs : List Byte) : Spells bs (bytesEach (bs.map (·.toNat))) := by
  induction bs with
  | nil => rfl
  | cons b bs ih => exact spells_append (spells_byte b) ih

theorem spells_handleBytes (h : Option Handle) : Spells (handleBytes h) (handleFields h) := by
  have zero : Spells [0] [(1, 0)] := spells_byte 0
  cases h with
  | none =>
    have a : Spells (beBytes 2 65535 ++ (beBytes 1 255 ++ [0])) [(2, 65535), (1, 255), (1, 0)] :=
      spells_beBytes (spells_beBytes zero)
    exact a
  | some h =>
    have a : Spells (beBytes 2 h.slot ++ (beBytes 1 h.issue.toNat ++ [0])) [(2, h.slot), (1, h.issue.toNat), (1, 0)] :=
      spells_beBytes (spells_beBytes zero)
    simpa [handleBytes, handleFields] using a

end Sys2Proof.Machine
end

