-- ==== Sys2Proof/Tests/Slice0.lean ====
section
/-! SUPPORT. Tests: ill-formed commands, frames written out byte by byte, a step of each command on small states, and
for each statement of the obligations a state that meets its hypotheses. -/

namespace Sys2Proof.Tests

open Sys2Proof Sys2Proof.Machine

set_option Elab.async false

/-! ### Small states -/

/-- A request frame of a node with a tag; every other field is 0. -/
def req (n t : Nat) : Frame :=
  ⟨1, 0, BitVec.ofNat 16 n, BitVec.ofNat 8 t, 0, 0, 0, 0, 0, 0, 0, 0, 0, 0, 0, []⟩

/-- The same with a handle. -/
def reqOn (n t slot issue : Nat) : Frame :=
  { req n t with slot := BitVec.ofNat 16 slot, issue := BitVec.ofNat 8 issue }

/-- Frame of the authority, node 4095. -/
def auth : Frame := req 4095 0

/-- Node 5 on N0: write permission, ceiling 3, quota 2, one tag (40) in use. -/
def node5 : NodeRec := ⟨.render, .present, some 0, 2, true, 3, 0, 0, 1#64 <<< 40⟩

/-- Node 6 on N1: write permission, ceiling 1, quota 64. -/
def node6 : NodeRec := ⟨.render, .present, some 1, 64, true, 1, 0, 0, 0⟩

/-- Node 7: enrolled, quiet, no write permission. -/
def node7 : NodeRec := ⟨.render, .enrolled, none, 4, false, 2, 0, 0, 0⟩

/-- Node 8: barred. -/
def node8 : NodeRec := ⟨.render, .barred, some 1, 4, true, 2, 0, 0, 0⟩

/-- Extent 10 of the base state: OUTPUT, 16 blocks on B0. -/
def ext10 : ExtentRec := ⟨0, 0, 4, true, true, false, 2⟩

/-- Extent 11: LIBRARY, 16 blocks on B0. -/
def ext11 : ExtentRec := ⟨0, 16, 4, false, false, true, 0⟩

/-- Extent 12: ASSET on B1, which has no disk. -/
def ext12 : ExtentRec := ⟨1, 0, 0, false, true, false, 3⟩

/-- Extent 13: PRIVATE, 16 blocks on B0. -/
def ext13 : ExtentRec := ⟨0, 32, 4, true, false, true, 3⟩

/-- N0 (round 1) and N1 UP, N2 and N3 DOWN; B0 READY with 64 blocks, B2 in SERVICE with 100. -/
def base : State :=
  { State.reset with
    ports := #v[⟨true, 1, 0, 0, []⟩, ⟨true, 0, 0, 0, []⟩, Port.reset, Port.reset]
    roster := [(5, node5), (6, node6), (7, node7), (8, node8), (4095, NodeRec.reset)]
    map := ⟨[(10, ext10), (11, ext11), (12, ext12), (13, ext13)], [(10, ⟨41, false⟩)]⟩
    bays := (State.reset.bays.set 0 ⟨.ready, 64, [], none, 1, 9, none⟩).set 2 ⟨.service, 100, [], none, 0, 0, none⟩ }

/-- A request of a node that waits, admitted on N0 in its round. -/
def waiting (code n t : Nat) : Req := ⟨code, n, t, 0, 1, false⟩

/-- A live loan of node 5 on extent 10, class 1, issue 3. -/
def held (mode : Mode) : LoanRec := ⟨3, .held, 5, 10, mode, 1, 7, 0, false, 0, none, none⟩

/-- The base state with that loan in slot 0. -/
def withLoan (l : LoanRec) : State :=
  base |> setLoan 0 l |> updNode 5 (fun r => { r with held := 1 })

/-- A claim entry. -/
def entry (n t : Nat) (k : EntryKind) (cls wait : Nat) : ClaimEntry := ⟨waiting 1 n t, k, cls, wait⟩

/-- A claim queue on extent 10. -/
def withQueue (q : List ClaimEntry) (s : State) : State := updXl 10 (fun x => { x with queue := q }) s

/-- A transfer of node 5 on B0. -/
def transfer (kind : TransferKind) (h : Option Handle) (e : Option Nat) : Transfer :=
  ⟨kind, waiting (if kind = .write then 6 else 5) 5 30, h, e, 0, 1, []⟩

/-- A transfer in flight with sequence number 9, as R70 issued it, at a tick count, its reply sent or not. -/
def fly (x : Transfer) (ticks : Nat) (sent : Bool) : InFlight := { x.issued 9 with ticks := ticks, replySent := sent }

/-- A transfer in flight on a bay, with sequence number 9. -/
def flying (b : Nat) (x : Transfer) (ticks : Nat) (s : State) : State :=
  updBay b (fun y => { y with inFlight := some (fly x ticks false) }) s

/-- The state a step answers with; none where it stops. -/
def next? (r : Result) : Option State :=
  match r with
  | .next t => some t
  | .fault _ | .refused _ => none

/-- What is read of the next state. -/
def of (r : Result) {α : Type} (f : State → α) : Option α := (next? r).map f

/-- Codes and statuses in the list of a port. -/
def said (p : PortId) (s : State) : List (Nat × Nat) :=
  (s.port p).egress.map (fun x => (x.frame.code, x.frame.status.code))

/-! ### Well-formedness refuses -/

/-- A body of more than 8192 bytes. -/
theorem test_wf_body (n : Nat) (h : 8192 < n) :
    (Instr.claim 0 { req 5 1 with body := List.replicate n 0 }).wellFormed = false := by
  refine decide_eq_false ?_
  rw [List.length_replicate]
  exact Nat.not_le.2 h

/-- A report with data of another length than none, one block or two. -/
theorem test_wf_data : (Instr.operationEndReport 0 9 (.success [1])).wellFormed = false := by decide

/-- A payload that passes the frame tests, as a malformed frame. -/
theorem test_wf_malformed : (Instr.malformedFrame 0 (frameBytes 1 (req 5 1))).wellFormed = false := by decide

/-- A code of the request table, as an unknown code. -/
theorem test_wf_unknown : (Instr.unknownCodeFrame 0 68 (req 5 1)).wellFormed = false := by decide

/-- A code outside it is well formed. -/
theorem test_wf_unknown_ok : (Instr.unknownCodeFrame 0 69 (req 5 1)).wellFormed = true := by decide

/-! ### Frames byte by byte (R150) -/

/-- CLAIM SOLE of extent 420 by node 212: tag 9, class 1, wait 120. Its seven header words are 01010100h, 00D40900h, 0,
01A40578h, 0, 0, 0; their sum is 03790F78h. -/
theorem test_decode_claim :
    decodeFrame 2
      [1, 1, 1, 0, 0, 212, 9, 0, 0, 0, 0, 0, 1, 164, 5, 120, 0, 0, 0, 0, 0, 0, 0, 0, 0, 0, 0, 0,
        252, 134, 240, 135, 255]
      = .claim 2 { req 212 9 with extent := 420, argA := 5, argB := 120 } := by decide

/-- A REVOKED notice as bytes: kind 3, code 97, node 500, handle 40/2, extent 700, reason BAY_LOST. -/
theorem test_payload_revoked :
    ((revokedNotice 500 ⟨40, 2⟩ 700 .bayLost).payload).take 28
      = [1, 3, 97, 0, 1, 244, 0, 0, 0, 40, 2, 0, 2, 188, 4, 0, 0, 0, 0, 0, 0, 0, 0, 0, 0, 0, 0, 0] := by decide

/-- The sizes of R156: each item kind writes as many bytes as its layout has. -/
theorem test_item_sizes :
    ([.extentRecord 1 2 3 4 5 1 2 3 0, .stagedRecord 1 2 3 4 5 1 2 3, .extentLoan 1 2 none 0 0 0 0 0 0,
        .holder ⟨1, 2⟩ 5 0 1 1 7 0, .queue 5 1 0 1 9 0 (some ⟨1, 2⟩),
        .loanRecord 0 3 1 5 10 1 1 7 0 0 0 0 0 0 0 0, .loanStatus ⟨1, 2⟩ 10 0 1 1 7 0, .clock 0 0 0 40 60 150 225,
        .bay 0 1 64 0 0 0 1 0 5 1 none 0 1 0 0, .bayIdle 0 1 64 0 0 0, .transfer 0 5 1 none none 0 1,
        .watch 5 41 0, .fence 0 0 0 0 0 0 0 0 0 0, .heldClaim 0 5 1 1 10 1 0 60 1,
        .held 0 5 1 1 10 none 0 14 2 0 60 1,
        .node 5 0 1 none 2 1 3 0 0 0, .eventRecord 6 1 0 0 1 5 10 0] : List Item).all
      (fun i => decide (i.bytes.length = i.size)) = true := by decide

/-- A held OPEN READ writes its absent handle as 65535 and 255, and a held claim writes zeros (R156). -/
theorem test_held_handles :
    (Item.held 2 5 41 7 11 none 0 14 2 1 60 4).bytes = [2, 0, 5, 41, 7, 0, 11, 255, 255, 255, 0, 0, 0, 0, 0, 14, 2, 1, 60, 4]
    ∧ (Item.heldClaim 0 5 40 1 10 1 0 52 1).bytes = [0, 0, 5, 40, 1, 0, 10, 0, 0, 0, 0, 1, 0, 0, 0, 0, 0, 0, 52, 1] := by
  decide

/-! ### A step of each command -/

/-- CLAIM SOLE on a free extent: class the lowest of 2, 2, 3 (R26). -/
theorem test_claim :
    of (exec (.claim 0 { req 5 1 with extent := 10, argA := 6, argB := 10 }) base)
      (fun t => (t.loan 0, said 0 t, (t.node 5).map (fun r => (r.held, r.tags.getLsbD 1))))
    = some (⟨0, .held, 5, 10, .sole, 2, 150, 0, false, 0, none, none⟩, [(1, 1)], some (1, true)) := by decide

/-- A claim on a SOLE extent joins its queue; on an extent of an ABSENT bay it is refused BAY_DOWN (R11, R25). -/
theorem test_claim_waits :
    of (exec (.claim 1 { req 6 1 with extent := 10, argA := 0, argB := 10 }) (withLoan (held .sole)))
      (fun t => ((t.xl 10).queue.map (·.wait), said 1 t)) = some ([10], [])
    ∧ of (exec (.claim 1 { req 6 1 with extent := 12, argA := 0 }) base) (said 1) = some [(1, 19)] := by decide

/-- RENEW by the holder, and by another node (R19, R35). -/
theorem test_renew :
    of (exec (.renew 0 (reqOn 5 1 0 3)) (withLoan (held .sole))) (fun t => ((t.loan 0).remaining, said 0 t))
      = some (60, [(2, 0)])
    ∧ of (exec (.renew 1 (reqOn 6 1 0 3)) (withLoan (held .sole))) (said 1) = some [(2, 10)] := by decide

/-- DOWNGRADE after three writes: one step, mark clear (R34). -/
theorem test_downgrade :
    of (exec (.downgrade 0 (reqOn 5 1 0 3)) (withLoan { held .sole with writes := 3 }))
      (fun t => (t.pair 10, (t.loan 0).mode, (t.loan 0).writes, said 0 t))
    = some (⟨42, false⟩, .shared, 0, [(3, 0)]) := by decide

/-- 01_extent_map.md, history of one extent: a release with 3 writes, none failed, takes 41 to 42. -/
theorem test_release :
    of (exec (.release 0 (reqOn 5 1 0 3)) (withLoan { held .sole with writes := 3 }))
      (fun t => (t.pair 10, (t.loan 0).issue, (t.loan 0).state, said 0 t)) = some (⟨42, false⟩, 4, .free, [(4, 0)]) := by
  decide

/-- A release with a transfer outstanding waits; the queue of the bay stays (R36). -/
theorem test_release_later :
    of (exec (.release 0 (reqOn 5 1 0 3)) (withLoan { held .sole with outstanding := 1 }))
      (fun t => ((t.loan 0).state, (t.loan 0).cause, said 0 t)) = some (.closing, some .released, []) := by decide

/-- READ joins an idle bay and is issued with the next sequence number (R42, R70). -/
theorem test_read :
    of (exec (.read 0 { reqOn 5 1 0 3 with offset := 15, argB := 1 }) (withLoan (held .shared)))
      (fun t => ((t.loan 0).outstanding, (t.bay 0).inFlight.map (fun x => (x.seq, x.transfer.first))))
    = some (1, some (10, 15)) := by decide

/-- A frame with a body of one block. -/
def oneBlock (f : Frame) : Frame := { f with argB := 1, body := List.replicate 4096 0 }

/-- WRITE on a SHARED loan is refused NOT_PERMITTED (R42). -/
theorem test_write :
    of (exec (.write 0 (oneBlock (reqOn 5 1 0 3))) (withLoan (held .shared))) (said 0) = some [(6, 6)] := by
  decide +kernel

/-- OPEN READ of a LIBRARY extent (R43). -/
theorem test_open_read :
    of (exec (.openRead 1 { req 6 1 with extent := 11, argB := 2, offset := 14 }) base)
      (fun t => ((t.xl 11).openReads, (t.bay 0).inFlight.map (fun x => x.transfer.first))) = some (1, some 30) := by decide

/-- 05_watches.md: EXPECT with an old generation is FIRED at once, OK first and then the STALE notice (R93). -/
theorem test_watch :
    of (exec (.watch 1 { req 6 1 with extent := 10, argA := 1, generation := 40 }) base)
      (fun t => (t.watches.map (fun x => (x.2.latched, x.2.state)), said 1 t))
    = some ([(41, .fired)], [(8, 0), (98, 0)]) := by decide

/-- UNWATCH without a record (R94). -/
theorem test_unwatch : of (exec (.unwatch 1 { req 6 1 with extent := 10 }) base) (said 1) = some [(9, 33)] := by decide

/-- NODE STATUS lists the loan (R47). -/
theorem test_node_status :
    of (exec (.nodeStatus 0 (req 5 1)) (withLoan (held .sole))) (fun t => (t.port 0).egress.map (·.frame.body))
      = some [[.loanStatus ⟨0, 3⟩ 10 1 1 1 7 0]] := by decide

/-- REVOKE LOAN of a SOLE loan with writes 0 still marks the extent torn (R38). -/
theorem test_revoke_loan :
    of (exec (.revokeLoan 1 { reqOn 4095 0 0 3 with }) (withLoan (held .sole)))
      (fun t => (t.pair 10, (t.loan 0).issue, said 0 t, said 1 t)) = some (⟨41, true⟩, 4, [(97, 0)], [(32, 0)]) := by
  decide

/-- READ LOAN of a FREE slot: the issue, and the other fields zero (R46). -/
theorem test_read_loan :
    of (exec (.readLoan 1 { auth with slot := 8191 }) base) (fun t => (t.port 1).egress.map (·.frame.body))
      = some [[.loanRecord 8191 0 0 0 0 0 0 0 0 0 0 0 0 0 0 0]] := by decide

/-- READ EXTENT: record, loan side, holder and queue entry (R17, R48). -/
theorem test_read_extent :
    of (exec (.readExtent 1 { auth with extent := 10 })
        (withQueue [entry 6 2 .sole 1 9] (withLoan (held .shared))))
      (fun t => (t.port 1).egress.map (·.frame.body))
    = some [[.extentRecord 10 0 0 4 6 2 5 5 0, .extentLoan 1 1 none 0 0 1 0 1 1,
        .holder ⟨0, 3⟩ 5 0 1 1 7 0, .queue 6 2 1 1 9 0 none]] := by decide

/-- The loader in OPEN with the base state's map staged. -/
def opened : State :=
  setLoader { Loader.reset with state := .opened, staging := base.map.records, openTimer := some 7 } base

/-- OPEN LOAD copies the map (R122). -/
theorem test_open_load :
    of (exec (.openLoad 1 auth) base) (fun t => decide (t.loader = { opened.loader with openTimer := some 30 }))
      = some true := by decide

/-- STAGE EXTENT with the item's fields (R123): bay 5, base 1048576, k 19, OUTPUT, ceiling 3. -/
theorem test_stage_extent :
    of (exec (.stageExtent 1 { auth with extent := 201, body := [0, 0, 5, 0, 0, 16, 0, 0, 19, 6, 3, 0, 0, 0] }) opened)
      (fun t => (t.loader.staging.look 201, t.loader.openTimer))
    = some (some ⟨5, 1048576, 19, true, true, false, 3⟩, some 30) := by decide

/-- UNSTAGE EXTENT of a number that is not staged (R124). -/
theorem test_unstage_extent :
    of (exec (.unstageExtent 1 { auth with extent := 9 }) opened) (fun t => (said 1 t, t.loader.openTimer))
      = some ([(37, 13)], some 30) := by decide

/-- READ STAGED shows SAME (R125). -/
theorem test_read_staged :
    of (exec (.readStaged 1 { auth with extent := 11 }) opened) (fun t => (t.port 1).egress.map (·.frame.body))
      = some [[.stagedRecord 11 0 16 4 1 0 1 0]] := by decide

/-- COMMIT LOAD goes to CHECKING with no reply (R127); in IDLE it is refused LOADER_STATE (R121). -/
theorem test_commit_load :
    of (exec (.commitLoad 1 { auth with argA := 2, argB := 20 }) opened)
      (fun t => (t.loader.state, t.loader.drainLimit, t.loader.onLimit, said 1 t))
      = some (.checking, some 20, some .force, [])
    ∧ of (exec (.commitLoad 1 { auth with argA := 2, argB := 20 }) base) (said 1) = some [(39, 34)] := by decide

/-- DISCARD LOAD (R136). -/
theorem test_discard_load :
    of (exec (.discardLoad 1 auth) opened) (fun t => (decide (t.loader = Loader.reset), said 1 t))
      = some (true, [(40, 0)]) := by decide

/-- SERVICE BAY on a READY bay with no loans enters SERVICE within the request (R82). -/
theorem test_service_bay :
    of (exec (.serviceBay 1 { auth with extent := 0 }) base) (fun t => ((t.bay 0).state, said 1 t))
      = some (.service, [(41, 0)]) := by decide

/-- SERVICE READ past the disk (R84). -/
theorem test_service_read :
    of (exec (.serviceRead 1 { auth with extent := 2, offset := 99, argB := 2 }) base) (said 1) = some [(42, 12)] := by
  decide

/-- SERVICE WRITE on a bay that is not in SERVICE (R84). -/
theorem test_service_write :
    of (exec (.serviceWrite 1 (oneBlock { auth with extent := 0 })) base) (said 1) = some [(43, 22)] := by
  decide +kernel

/-- RETURN BAY (R86). -/
theorem test_return_bay :
    of (exec (.returnBay 1 { auth with extent := 2 }) base) (fun t => ((t.bay 2).state, said 1 t))
      = some (.ready, [(44, 0)]) := by decide

/-- READ BAY with nothing in flight (R87, R156). -/
theorem test_read_bay :
    of (exec (.readBay 1 { auth with extent := 0 }) base) (fun t => (t.port 1).egress.map (·.frame.body))
      = some [[.bayIdle 0 1 64 1 0 0]] := by decide

/-- The base state with a watch of node 6 on extent 10. -/
def watched (st : WatchState) : State := setWatches [(watchKey 10 6, ⟨6, 10, 41, st⟩)] base

/-- READ WATCHES (R100). -/
theorem test_read_watches :
    of (exec (.readWatches 1 { auth with extent := 10 }) (watched .armed)) (fun t => (t.port 1).egress.map (·.frame.body))
      = some [[.watch 6 41 0]] := by decide

/-- SET FENCE (R114): F0 on B0, base 0, k 23, SOLE_CLAIM, HOLD, global. -/
theorem test_set_fence :
    of (exec (.setFence 1 { auth with body := [9, 0, 0, 0, 0, 0, 0, 23, 0, 1, 0, 1, 1, 1] }) base)
      (fun t => (t.fence 0, said 1 t)) = some (⟨0, 0, 23, .soleClaim, .hold, false, true, false⟩, [(47, 0)]) := by decide

/-- F0 holds SOLE claims on B0; F1, disabled, would refuse all. -/
def fenced : State :=
  setFences ((Vector.replicate 8 Fence.reset).set 0 ⟨0, 0, 23, .soleClaim, .hold, false, true, false⟩
    |>.set 1 ⟨0, 0, 4, .any, .refuse, false, false, false⟩) base

/-- 06_fences.md: a SOLE claim is held, F0 and the disabled F1 take hits; a SHARED claim passes and sets none. -/
theorem test_fences :
    of (exec (.claim 0 { req 5 2 with extent := 10, argA := 5, argB := 30 }) fenced)
      (fun t => ([(t.fence 0).hit, (t.fence 1).hit], t.fences.held.map (fun x => (x.1, x.2.remaining))))
      = some ([true, true], [(0, 60)])
    ∧ of (exec (.claim 0 { req 5 2 with extent := 10, argA := 1, argB := 30 }) fenced)
      (fun t => ([(t.fence 0).hit, (t.fence 1).hit], said 0 t)) = some ([false, false], [(1, 1)]) := by decide

/-- CLEAR FENCE HITS (R116). -/
theorem test_clear_fence_hits :
    of (exec (.clearFenceHits 1 { auth with argA := 2 }) (setHits [0, 1] fenced)) (fun t => ((t.fence 0).hit, (t.fence 1).hit))
      = some (true, false) := by decide

/-- READ FENCES gives eight items (R117). -/
theorem test_read_fences :
    of (exec (.readFences 1 auth) fenced) (fun t => (t.port 1).egress.map (fun x => (x.frame.argB, x.frame.body.length)))
      = some [(0, 8)] := by decide

/-- A SOLE claim of node 5 on an extent, held in H0. -/
def heldClaim (e remaining : Nat) : State :=
  setHeld [(0, ⟨waiting 1 5 40, .claim e .sole 1 30, remaining, 1⟩)] base

/-- LIST HELD (R118). -/
theorem test_list_held :
    of (exec (.listHeld 1 auth) (heldClaim 10 52)) (fun t => (t.port 1).egress.map (·.frame.body))
      = some [[.heldClaim 0 5 40 1 10 1 0 52 1]] := by decide

/-- LIST HELD of a READ: its handle and its loan's extent (R118, R42). -/
theorem test_list_held_read :
    of (exec (.listHeld 1 auth) (setHeld [(2, ⟨waiting 5 5 40, .transfer false 0 3 10 14 2 [], 9, 4⟩)] base))
      (fun t => (t.port 1).egress.map (·.frame.body)) = some [[.held 2 5 40 5 10 (some ⟨0, 3⟩) 0 14 2 0 9 4]] := by decide

/-- RELEASE HELD of a tag that is not held (R110). -/
theorem test_release_held :
    of (exec (.releaseHeld 1 { auth with argB := 39, offset := 5 }) (heldClaim 10 52)) (said 1) = some [(51, 17)] := by
  decide

/-- REJECT HELD (R112). -/
theorem test_reject_held :
    of (exec (.rejectHeld 1 { auth with argB := 40, offset := 5 }) (heldClaim 10 52))
      (fun t => (t.fences.held.length, said 0 t, said 1 t)) = some (0, [(1, 16)], [(52, 0)]) := by decide

/-- ENROLL NODE (R143). -/
theorem test_enroll_node :
    of (exec (.enrollNode 1 { auth with offset := 9, body := [16, 1, 3, 0] }) base) (fun t => (t.node 9, said 1 t))
      = some (some ⟨.render, .enrolled, none, 16, true, 3, 0, 0, 0⟩, [(53, 0)]) := by decide

/-- SET NODE moves the role to a quiet record (R145). -/
theorem test_set_node :
    of (exec (.setNode 1 { auth with offset := 7, body := [16, 1, 3, 1] }) base)
      (fun t => (t.isAuthority 7, t.isAuthority 4095, said 1 t)) = some (true, false, [(54, 0)]) := by decide

/-- BAR NODE takes a node's watch off (R99, R146). -/
theorem test_bar_node :
    of (exec (.barNode 1 { auth with offset := 6 }) (watched .armed)) (fun t => (t.isBarred 6, t.watches.length, said 1 t))
      = some (true, 0, [(55, 0)]) := by decide

/-- UNBAR NODE (R148). -/
theorem test_unbar_node :
    of (exec (.unbarNode 1 { auth with offset := 8 }) base) (fun t => (t.node 8).map (·.state)) = some (some .present) := by
  decide

/-- REMOVE NODE with a tag in use is refused BUSY (R147). -/
theorem test_remove_node :
    of (exec (.removeNode 1 { auth with offset := 5 }) base) (said 1) = some [(57, 2)]
    ∧ of (exec (.removeNode 1 { auth with offset := 7 }) base) (fun t => t.node 7) = some none := by decide

/-- READ NODE (R148). -/
theorem test_read_node :
    of (exec (.readNode 1 { auth with offset := 6 }) base) (fun t => (t.port 1).egress.map (·.frame.body))
      = some [[.node 6 0 1 (some 1) 64 1 1 0 0 0]] := by decide

/-- SET LEASE CLASS (R56). -/
theorem test_set_lease_class :
    of (exec (.setLeaseClass 1 { auth with argA := 2, units := 30 }) base) (fun t => (t.units 1, t.units 2))
      = some (60, 30) := by decide

/-- CLOCK STOP, and CLOCK RUN after it before the tick (R60). -/
theorem test_clock_stop :
    of (exec (.clockStop 1 auth) base) (fun t => (t.clock.run, t.clock.order)) = some (.running, some .stop) := by decide

/-- CLOCK RUN replaces a pending STOP (R60). -/
theorem test_clock_run :
    of (exec (.clockRun 1 auth) (setClock { base.clock with order := some .stop } base)) (fun t => t.clock.order)
      = some (some .run) := by decide

/-- CLOCK RESET (R63). -/
theorem test_clock_reset :
    of (exec (.clockReset 1 auth) (setClock { base.clock with count := 12000 } base)) (fun t => t.clock.count)
      = some 0 := by decide

/-- READ CLOCK between a CLOCK STOP and the tick (R64). -/
theorem test_read_clock :
    of (exec (.readClock 1 auth) (setClock { base.clock with count := 14000, order := some .stop } base))
      (fun t => (t.port 1).egress.map (·.frame.body)) = some [[.clock 14000 0 1 40 60 150 225]] := by decide

/-- 10_events_and_notices.md, start-up: B4's presence has been recorded, no level is set. -/
def presence : State := raise .bayPresence ⟨4, 1, 0⟩ base

/-- SET EVENT LEVELS: admission finds nothing; the levels make BAY_PRESENCE qualify; its notice precedes OK. -/
theorem test_set_event_levels :
    of (exec (.setEventLevels 0 { auth with body := [1, 1, 1, 1, 1, 2, 2, 2, 2, 2, 2, 2, 2, 2, 2, 2] }) presence)
      (fun t => ((t.event 9).noticed, said 0 t)) = some (true, [(99, 0), (64, 0)]) := by decide

/-- SET MASK LEVEL (R168). -/
theorem test_set_mask_level :
    of (exec (.setMaskLevel 0 { auth with argA := 1 }) base) (fun t => (t.events.mask, said 0 t))
      = some (1, [(65, 0)]) := by decide

/-- CLEAR EVENTS (R169): kind 9 counts 512. -/
theorem test_clear_events :
    of (exec (.clearEvents 0 { auth with extent := 512 }) presence) (fun t => (t.event 9, said 0 t))
      = some (⟨false, false, 0, none⟩, [(66, 0)]) := by decide

/-- READ EVENTS (R170). -/
theorem test_read_events :
    of (exec (.readEvents 0 auth) presence)
      (fun t => (t.port 0).egress.map (fun x => (x.frame.body.length, x.frame.body[9]?)))
    = some [(16, some (.eventRecord 9 1 0 0 1 4 1 0))] := by decide

/-- LENDING RESET refuses a waiting claim and frees the SOLE loan torn (R50). -/
theorem test_lending_reset :
    of (exec (.lendingReset 1 auth) (withQueue [entry 6 2 .sole 1 9] (withLoan (held .sole))))
      (fun t => ((t.loan 0).issue, t.pair 10, [said 0 t, said 1 t]))
    = some (4, ⟨41, true⟩, [[(1, 41)], [(68, 0)]]) := by decide

/-- PORT_LINK_DOWN steps the round (R163). -/
theorem test_port_link_down :
    of (exec (.portLinkDown 0) base) (fun t => t.port 0) = some ⟨false, 2, 0, 0, []⟩ := by decide

/-- PORT_LINK_UP keeps it. -/
theorem test_port_link_up : of (exec (.portLinkUp 2) base) (fun t => t.port 2) = some ⟨true, 0, 0, 0, []⟩ := by decide

/-- A port whose list holds a reply to node 5 with tag 40. -/
def replying : State :=
  base |> setPort 0 ⟨true, 1, 1, 0, [⟨plainReply 2 (req 5 40) .ok, true⟩]⟩

/-- FRAME_LEAVES frees the reservation and the tag (R141, R161). -/
theorem test_frame_leaves :
    of (exec (.frameLeaves 0) replying) (fun t => ((t.port 0).reservations, (t.node 5).map (·.tags)))
      = some (0, some 0) := by decide

/-- BAY_LINK_DOWN (R77). -/
theorem test_bay_link_down :
    of (exec (.bayLinkDown 2) base) (fun t => ((t.bay 2).state, (t.event 9).detail)) = some (.absent, some ⟨2, 0, 0⟩) := by
  decide

/-- BAY_LINK_UP (R78): a report above 2^36 is recorded as 2^36 (R67). -/
theorem test_bay_link_up :
    of (exec (.bayLinkUp 1 (2 ^ 36 + 1)) base) (fun t => ((t.bay 1).state, (t.bay 1).capacity)) = some (.ready, 2 ^ 36) := by
  decide

/-- A SOLE loan that expired with its WRITE in flight (03_lease_clock.md): CLOSING, one outstanding, writes 6. -/
def dying : State :=
  flying 0 (transfer .write (some ⟨0, 3⟩) (some 10)) 5
    (withLoan { held .sole with state := .closing, outstanding := 1, writes := 6, cause := some .expired })

/-- OPERATION_END_REPORT: OK, then the loan ends with the generation stepped and the extent torn; a report with
another number is discarded (R45, R71). -/
theorem test_operation_end_report :
    of (exec (.operationEndReport 0 9 (.success [])) dying)
      (fun t => (t.pair 10, (t.loan 0).issue, (t.bay 0).timeouts, said 0 t)) = some (⟨42, true⟩, 4, 0, [(6, 0)])
    ∧ of (exec (.operationEndReport 0 8 (.success [])) dying) (fun t => (t.pair 10, said 0 t)) = some (⟨41, false⟩, []) := by
  decide

/-- FULL_RESET (R172). -/
theorem test_full_reset : of (exec .fullReset dying) (fun t => decide (t = State.reset)) = some true := by decide

/-- LEASE_TICK from 16383 to 0 fires all taps; a STOP holds the count (R51, R52). -/
theorem test_lease_tick :
    of (exec .leaseTick (setClock { base.clock with count := 16383 } (withLoan { held .sole with cls := 3 })))
      (fun t => (t.clock.count, (t.loan 0).remaining)) = some (0, 6)
    ∧ of (exec .leaseTick (setClock { base.clock with count := 14000, order := some .stop } base))
      (fun t => (t.clock.count, t.clock.run, t.clock.order)) = some (14000, .stopped, none) := by decide

/-- TRANSFER_TICK: the 32nd tick times the transfer out (R75). -/
theorem test_transfer_tick :
    of (exec .transferTick (flying 0 (transfer .openRead none (some 11)) 31 base))
      (fun t => ((t.bay 0).timeouts, (t.bay 0).inFlight, said 0 t)) = some (2, none, [(5, 24)]) := by decide +kernel

/-- LEASE_EXPIRY (R58): EXPIRED notice and event EXPIRY_C1. -/
theorem test_lease_expiry :
    of (exec (.leaseExpiry 0) (withLoan { held .shared with remaining := 0 }))
      (fun t => ((t.loan 0).state, (t.event 1).detail, said 0 t)) = some (.free, some ⟨5, 10, 0⟩, [(96, 0)]) := by decide

/-- CLAIM_WAIT_TIMEOUT (R30). -/
theorem test_claim_wait_timeout :
    of (exec (.claimWaitTimeout 10) (withQueue [entry 6 2 .sole 1 0] (withLoan (held .sole))))
      (fun t => ((t.xl 10).queue.length, (t.event 4).detail, said 0 t)) = some (0, some ⟨6, 10, 0⟩, [(1, 3)]) := by decide

/-- The due entries of an extent leave together (R30): a due SHARED and a due SOLE entry before a SHARED one that only a
slot is wanting for, and the extent keeps its place on the table-wait list. -/
theorem test_due_entries_together :
    (let s := setTableWait [10, 11] (withQueue [entry 5 2 .shared 1 0, entry 6 2 .sole 1 0, entry 7 2 .shared 1 5]
        (withLoan (held .shared)))
     let t := timeOutEntries 10 (s.dueEntries 10) s
     (t.loans.tableWait, (t.xl 10).queue.map (·.wait), said 0 t)) = ([10, 11], [5], [(1, 3), (1, 3)]) := by decide

/-- HOLD_TIMEOUT (R109). -/
theorem test_hold_timeout :
    of (exec (.holdTimeout 0) (heldClaim 10 0)) (fun t => (t.fences.held.length, said 0 t)) = some (0, [(1, 15)]) := by decide

/-- OPEN_TIMEOUT (R126). -/
theorem test_open_timeout :
    of (exec .openTimeout (setLoader { opened.loader with openTimer := some 0 } opened))
      (fun t => (decide (t.loader = Loader.reset), (t.event 12).detail)) = some (true, some ⟨1, 0, 0⟩) := by decide

/-- The loader DRAINING: extent 10 is removed, its drain marked, COMMIT LOAD owed, FORCE at the limit. -/
def draining (timer : Option Nat) (act : OnLimit) (s : State) : State :=
  s |> setLoader ⟨.draining, [(11, ext11), (12, ext12), (13, ext13)], none, some .orderly, some 20, some act, timer,
        false, [10], some (waiting 39 4095 6)⟩
    |> setDrainMark 10

/-- DRAIN_LIMIT_EXPIRY (R134) with DISCARD. -/
theorem test_drain_limit_expiry :
    of (exec .drainLimitExpiry (draining (some 0) .discard (withLoan (held .shared))))
      (fun t => ((t.loan 0).state, (t.xl 10).drainMark, said 0 t)) = some (.held, false, [(39, 37)]) := by decide

/-- The same with FORCE: the last loan is revoked and the swap made. -/
theorem test_drain_force :
    of (exec .drainLimitExpiry (draining (some 0) .force (withLoan (held .shared))))
      (fun t => ((t.loan 0).state, t.extent 10, said 0 t)) = some (.free, none, [(97, 0), (39, 0)]) := by decide

/-- TRANSFER_TIMEOUT (R75): the loan is doubtful. -/
theorem test_transfer_timeout :
    of (exec (.transferTimeout 0) (flying 0 (transfer .write (some ⟨0, 3⟩) (some 10)) 32
        (withLoan { held .sole with outstanding := 1 })))
      (fun t => ((t.loan 0).doubtful, (t.loan 0).writes, said 0 t)) = some (true, 1, [(6, 24)]) := by decide

/-- 07_map_loading.md: 203 lies inside 201, and the check fails with OVERLAP (R128, R129). -/
theorem test_check_completion :
    of (exec .checkCompletion (setLoader { opened.loader with
        state := .checking, commitOwed := some (waiting 39 4095 6)
        staging := [(201, ⟨5, 1048576, 19, true, true, false, 3⟩), (203, ⟨5, 1310720, 18, true, true, false, 3⟩)] } base))
      (fun t => (t.loader.state, (t.port 0).egress.map (fun x =>
        [x.frame.status.code, x.frame.extent, x.frame.argA, x.frame.offset, x.frame.argB])))
    = some (.opened, [[36, 203, 6, 201, 1]]) := by decide

/-- SWAP (R135): extent 10 leaves the map at generation 0, and the load is answered OK. -/
theorem test_swap :
    of (exec .swap (draining none .force base)) (fun t => (t.extent 10, t.pair 10, t.loader.state, said 0 t))
      = some (none, ⟨0, false⟩, .idle, [(39, 0)]) := by decide

/-- A SERVICE_PENDING bay that owes its SERVICE BAY. -/
def pendingBay : State :=
  updBay 0 (fun y => { y with state := .servicePending, serviceOwed := some (waiting 41 4095 3) }) base

/-- ENTRY_INTO_SERVICE (R82). -/
theorem test_entry_into_service :
    of (exec (.entryIntoService 0) pendingBay) (fun t => ((t.bay 0).state, said 0 t)) = some (.service, [(41, 0)]) := by decide

/-- LENDING RESET answers the transfer in flight before the owed SERVICE BAY (R89 steps 2 and 3). -/
theorem test_reset_order :
    of (exec (.lendingReset 1 auth) (flying 0 (transfer .openRead none (some 11)) 5
        (updXl 11 (fun x => { x with openReads := 1 }) pendingBay)))
      (fun t => (said 0 t, said 1 t)) = some ([(5, 41), (41, 41)], [(68, 0)]) := by decide +kernel

/-- ISSUE (R70). -/
theorem test_issue :
    of (exec (.issue 0) (updBay 0 (fun y => { y with queue := [transfer .openRead none (some 11)], seq := 65535 }) base))
      (fun t => ((t.bay 0).queue.length, (t.bay 0).inFlight.map (·.seq))) = some (0, some 0) := by decide

/-- What the bay link receives at issue (R70): the WRITE's blocks and data; a SERVICE READ as a read. -/
theorem test_operation_at_issue :
    of (exec (.issue 0) (updBay 0 (fun y => { y with
        queue := [⟨.write, waiting 6 5 30, some ⟨0, 3⟩, some 10, 15, 1, [7]⟩] }) base))
      (fun t => (t.bay 0).inFlight.map (·.operation)) = some (some ⟨true, 15, 1, [7], 10⟩)
    ∧ of (exec (.serviceRead 1 { auth with extent := 2, offset := 98, argB := 2 }) base)
      (fun t => (t.bay 2).inFlight.map (·.operation)) = some (some ⟨false, 98, 2, [], 1⟩) := by decide

/-- LOAN_END (R38): an owed release is answered OK, with the pair after the update. -/
theorem test_loan_end :
    of (exec (.loanEnd 0) (withLoan { held .sole with
        state := .closing, writes := 1, cause := some .released, releaseOwed := some (waiting 4 5 40) }))
      (fun t => ((t.loan 0).issue, (t.port 0).egress.map (fun x => (x.frame.status, x.frame.generation, x.frame.torn))))
    = some (4, [(.ok, 42, false)]) := by decide

/-- GRANT_FROM_QUEUE: a batch of SHARED entries stops at the SOLE one (R29). -/
theorem test_grant_from_queue :
    of (exec (.grantFromQueue 10) (withQueue [entry 5 2 .shared 3 9, entry 6 2 .shared 3 9, entry 7 2 .sole 1 9] base))
      (fun t => ((t.xl 10).queue.length, (t.loan 0).cls, (t.loan 1).cls, said 0 t)) = some (1, 2, 1, [(1, 1), (1, 1)]) := by
  decide

/-- CONVERSION (R33). -/
theorem test_conversion :
    of (exec (.conversion 10) (withQueue [entry 5 2 (.upgrade ⟨0, 3⟩) 1 9] (withLoan { held .shared with state := .upgrading })))
      (fun t => ((t.loan 0).mode, (t.loan 0).state, (t.loan 0).remaining, said 0 t)) = some (.sole, .held, 60, [(1, 1)]) := by
  decide

/-- The authority has a learned port and a flag qualifies. -/
def noticing : State :=
  base |> updNode 4095 (fun r => { r with learned := some 0, state := .present })
    |> setEvent 9 ⟨true, false, 2, some ⟨4, 1, 0⟩⟩

/-- EVENT_NOTICE (R167). -/
theorem test_event_notice :
    of (exec .eventNotice noticing) (fun t => ((t.event 9).noticed, (t.port 0).egress.map (·.frame.body)))
      = some (true, [[.eventRecord 9 1 1 2 1 4 1 0]]) := by decide

/-- A port of the authority that comes up lets the waiting EVENT notice go (R163, R167); another port's does not. -/
theorem test_port_up_tells :
    of (exec (.portLinkUp 0) (setPort 0 ⟨false, 1, 0, 0, []⟩ noticing)) (said 0) = some [(99, 0)]
    ∧ of (exec (.portLinkUp 2) noticing) (fun t => (said 0 t, said 2 t)) = some ([], []) := by decide

/-- MALFORMED_FRAME (R158): the empty payload. -/
theorem test_malformed_frame :
    of (exec (.malformedFrame 1 []) base) (fun t => ((t.event 15).detail, said 1 t, (t.port 1).reservations))
      = some (some ⟨0, 1, 0⟩, [], 0) := by decide

/-- UNKNOWN_CODE_FRAME (R160): NOT_AUTHORITY from a render node, BAD_REQUEST from the authority. -/
theorem test_unknown_code_frame :
    of (exec (.unknownCodeFrame 0 200 (req 5 1)) base) (said 0) = some [(200, 30)]
    ∧ of (exec (.unknownCodeFrame 0 200 auth) base) (said 0) = some [(200, 40)] := by decide

/-- 01_extent_map.md: lookups of blocks and spans (R4, R5). -/
theorem test_lookup :
    (let s := setRecords [(100, ⟨7, 0, 20, false, true, true, 3⟩), (101, ⟨7, 1048576, 18, true, true, false, 2⟩),
        (102, ⟨7, 1310720, 18, true, false, true, 1⟩), (103, ⟨7, 4194304, 22, false, false, true, 0⟩)] base
    (s.lookupBlock 7 1300000, s.lookupBlock 7 2000000, s.lookupSpan 7 1310719 2, s.lookupSpan 7 1572863 2,
        s.lookupBlock 8 1300000))
    = (some 101, none, [101, 102], [102], none) := by decide

/-- The front command is taken and the rest waits; an empty queue idles. -/
theorem test_step :
    of (step { base with pending := [.portLinkUp 2, .portLinkDown 0] }) (fun t => ((t.port 2).up, t.pending))
      = some (true, [.portLinkDown 0]) := by decide

/-! ### States that meet the hypotheses of the statements

One theorem for each statement with hypotheses, and for each of its clauses, at the values where its ranges end. -/

/-- What holds of the record found holds of every record found. -/
theorem forall_found {α : Type} {o : Option α} {P : α → Prop} [DecidablePred P]
    (h : o.all (fun x => decide (P x)) = true) : ∀ r, o = some r → P r := by
  intro r e
  subst e
  exact of_decide_eq_true h

/-- One authority, where one record of the roster holds the role. -/
theorem one_of {s : State} {n : Nat} (rise : s.roster.rising = true)
    (h : (s.roster.filter (fun x => decide (x.2.role = .authority))).map (·.1) = [n]) :
    ∃ n, ∀ m, s.isAuthority m = true ↔ m = n := by
  have key : ∀ m, s.isAuthority m = true ↔ m ∈ (s.roster.filter (fun x => decide (x.2.role = .authority))).map (·.1) := by
    intro m
    constructor
    · intro a
      unfold State.isAuthority at a
      split at a
      · next r hr => exact List.mem_map.2 ⟨(m, r), List.mem_filter.2 ⟨Tab.mem_of_look hr, by simpa using a⟩, rfl⟩
      · cases a
    · intro a
      obtain ⟨⟨k, r⟩, hr, rfl⟩ := List.mem_map.1 a
      obtain ⟨hm, hp⟩ := List.mem_filter.1 hr
      have : s.node k = some r := Tab.look_of_mem rise hm
      unfold State.isAuthority
      rw [this]
      simpa using hp
  refine ⟨n, fun m => ?_⟩
  rw [key, h]
  simp

/-- What holds of each listed entry at its key, and of the value an unlisted key reads as, holds of every key. -/
theorem forall_key {α : Type} {t : Tab α} {d : α} {P : Nat → α → Prop} (all : ∀ x ∈ t, P x.1 x.2)
    (rest : ∀ n, P n d) : ∀ n, P n (t.val d n) := by
  intro n
  unfold Tab.val
  cases h : t.look n with
  | none => exact rest n
  | some v => exact all _ (Tab.mem_of_look h)

/-- The same of values alone. -/
theorem forall_val {α : Type} {t : Tab α} {d : α} {P : α → Prop} (all : ∀ x ∈ t, P x.2) (rest : P d) :
    ∀ n, P (t.val d n) := forall_key (P := fun _ => P) all (fun _ => rest)

/-- What holds of B0..B23 and of the reset record holds of every bay number. -/
theorem forall_bay {s : State} {P : Bay → Prop} (all : ∀ b : Fin 24, P (s.bay b.val)) (rest : P Bay.reset) :
    ∀ b, P (s.bay b) := by
  intro b
  by_cases h : b < 24
  · exact all ⟨b, h⟩
  · have : s.bay b = Bay.reset := by simp [State.bay, h]
    rw [this]
    exact rest

theorem base_one : ∃ n, ∀ m, base.isAuthority m = true ↔ m = n := one_of (n := 4095) (by decide) (by decide)

/-- With an empty queue of commands. -/
theorem witness_idle : base.pending = [] := rfl

/-- A payload of every size: with no body, with a body of 8192 bytes, and of an unknown code. -/
theorem witness_frames :
    (Instr.claim 0 (req 5 1)).wellFormed = true ∧ (Instr.claim 0 (req 5 1)).asFrame = some (0, 1, req 5 1)
    ∧ (Instr.serviceWrite 3 { req 5 1 with body := List.replicate 8192 7 }).wellFormed = true
    ∧ (Instr.unknownCodeFrame 0 69 (req 5 1)).wellFormed = true
    ∧ (Instr.unknownCodeFrame 0 69 (req 5 1)).asFrame = some (0, 69, req 5 1) := by
  refine ⟨by decide, rfl, ?_, by decide, rfl⟩
  decide +kernel

/-- Frames that leave: with no body, and with data of up to 8192 bytes. -/
theorem witness_frames_that_leave :
    ((plainReply 2 (req 5 40) .ok).body.map Item.bytes).flatten.length ≤ 8192
    ∧ ∀ n, n ≤ 8192 → (({ plainReply 5 (req 5 40) .ok with body := [.data (List.replicate n 7)] } : OutFrame).body.map
        Item.bytes).flatten.length ≤ 8192 := by
  refine ⟨by decide, fun n h => ?_⟩
  change ([(Item.data (List.replicate n 7)).bytes]).flatten.length ≤ 8192
  rw [List.flatten_cons, List.flatten_nil, List.append_nil]
  exact Nat.le_trans (Nat.le_of_eq List.length_replicate) h

/-- Payloads on both sides of each frame test. -/
theorem witness_frame_tests :
    frameOk (frameBytes 1 (req 5 1)) = true ∧ frameOk (frameBytes 6 (oneBlock (req 5 1))) = true
    ∧ frameOk (List.replicate 31 0) = false ∧ frameOk (List.replicate 32 0) = false
    ∧ frameOk ((frameBytes 1 (req 5 1)).set 0 2) = false ∧ frameOk ((frameBytes 1 (req 5 1)).set 27 1) = false
    ∧ frameOk ((frameBytes 6 (oneBlock (req 5 1))).take 4127) = false
    ∧ (base.port 0).up = true := by
  refine ⟨by decide, ?_, by decide, by decide, by decide, by decide, ?_, by decide⟩ <;> decide +kernel

/-- Ingress: a DOWN port; 448 reservations, and 447; an unknown, a BARRED, a busy sender. -/
theorem witness_ingress :
    ((Instr.claim 2 (req 5 1)).asFrame = some (2, 1, req 5 1) ∧ (base.port 2).up = false)
    ∧ (let s := setPort 0 { base.port 0 with reservations := 448 } base; (s.port 0).up = true ∧ 448 ≤ (s.port 0).reservations)
    ∧ (let s := setPort 0 { base.port 0 with reservations := 447 } base; (s.port 0).up = true ∧ (s.port 0).reservations < 448)
    ∧ base.node 9 = none ∧ (base.node 8 = some node8 ∧ node8.state = .barred)
    ∧ (base.node 5 = some node5 ∧ node5.state ≠ .barred ∧ node5.tags.getLsbD 40 = true) := by decide

/-- Ingress by role: codes 0, 11 and 255 of a render node, codes 1 and 10 of the authority; then a kind, a tag of 64 and an
unknown code. -/
theorem witness_ingress_roles :
    (base.node 5 = some node5 ∧ node5.role = .render ∧ node5.tags.getLsbD 64 = false)
    ∧ (¬ (1 ≤ (0#8).toNat ∧ (0#8).toNat ≤ 10) ∧ ¬ (1 ≤ (11#8).toNat ∧ (11#8).toNat ≤ 10) ∧ ¬ (1 ≤ (255#8).toNat ∧ (255#8).toNat ≤ 10))
    ∧ (base.node 4095 = some NodeRec.reset ∧ NodeRec.reset.role = .authority ∧ NodeRec.reset.state ≠ .barred)
    ∧ ((Instr.claim 0 auth).asFrame = some (0, 1, auth) ∧ (Instr.nodeStatus 0 auth).asFrame = some (0, 10, auth))
    ∧ ({ req 5 1 with kind := 2 } : Frame).kind ≠ 1 ∧ 63 < (req 5 64).tag.toNat
    ∧ (Instr.unknownCodeFrame 1 200 auth).asFrame = some (1, 200, auth) := by decide

/-- A value just outside the range of each field that R160 names, in a request that reads the field. -/
theorem witness_illegal_values :
    IllegalValue (.claim 0 { req 5 1 with extent := 4096 }) ∧ IllegalValue (.claim 0 { req 5 1 with argA := 8 })
    ∧ IllegalValue (.renew 0 (reqOn 5 1 8192 0)) ∧ IllegalValue (.revokeLoan 0 (reqOn 4095 1 0 16))
    ∧ IllegalValue (.release 0 { reqOn 5 1 0 3 with handlePad := 1 })
    ∧ IllegalValue (.read 0 { reqOn 5 1 0 3 with argB := 0 }) ∧ IllegalValue (.openRead 0 { req 5 1 with argB := 3 })
    ∧ IllegalValue (.write 0 { reqOn 5 1 0 3 with argB := 1 }) ∧ IllegalValue (.watch 0 { req 5 1 with argA := 2 })
    ∧ IllegalValue (.readLoan 0 { auth with slot := 8192 })
    ∧ IllegalValue (.stageExtent 0 { auth with body := [0, 0, 0, 0, 0, 0, 0, 0, 0, 8, 0, 0, 0, 0] })
    ∧ IllegalValue (.commitLoad 0 { auth with argA := 4, argB := 1 }) ∧ IllegalValue (.commitLoad 0 auth)
    ∧ IllegalValue (.serviceBay 0 { auth with extent := 24 }) ∧ IllegalValue (.serviceBay 0 { auth with argA := 2 })
    ∧ IllegalValue (.serviceRead 0 { auth with blockHigh := 16, argB := 1 }) ∧ IllegalValue (.returnBay 0 { auth with body := [0] })
    ∧ IllegalValue (.setFence 0 { auth with argA := 8 })
    ∧ IllegalValue (.setFence 0 { auth with body := [0, 0, 0, 0, 0, 0, 0, 0, 0, 0, 0, 2, 0, 0] })
    ∧ IllegalValue (.releaseHeld 0 { auth with argA := 16, offset := 5 })
    ∧ IllegalValue (.rejectHeld 0 { auth with argB := 64, offset := 5 }) ∧ IllegalValue (.barNode 0 auth)
    ∧ IllegalValue (.readNode 0 { auth with offset := 4096 })
    ∧ IllegalValue (.enrollNode 0 { auth with offset := 9, body := [16, 1, 3, 1] })
    ∧ IllegalValue (.setNode 0 { auth with offset := 9, body := [65, 1, 3, 1] })
    ∧ IllegalValue (.setLeaseClass 0 { auth with argA := 4, units := 1 }) ∧ IllegalValue (.setLeaseClass 0 auth)
    ∧ IllegalValue (.setEventLevels 0 { auth with body := List.replicate 15 3 ++ [4] })
    ∧ IllegalValue (.setMaskLevel 0 { auth with argA := 4 }) ∧ IllegalValue (.lendingReset 0 { auth with body := [0] }) := by
  repeat' apply And.intro
  all_goals
    simp only [IllegalValue, BadHandle, BadCount, BadNodeId, BadSetting]
    decide

/-- Port links and the head of a list: DOWN, UP, empty, a reply, a notice. -/
theorem witness_ports :
    (base.port 2).up = false ∧ (base.port 0).up = true ∧ (base.port 0).egress = []
    ∧ ((replying.port 0).egress = [⟨plainReply 2 (req 5 40) .ok, true⟩] ∧ (plainReply 2 (req 5 40) .ok).notice = false)
    ∧ (let s := setPort 1 ⟨true, 0, 0, 1, [⟨noticeFrame 99 4095, false⟩]⟩ base
       (s.port 1).egress = [⟨noticeFrame 99 4095, false⟩] ∧ (noticeFrame 99 4095).notice = true)
    ∧ (∀ n r, base.authority = some (n, r) → r.learned ≠ some 2) := by
  refine ⟨by decide, by decide, by decide, by decide, by decide, ?_⟩
  intro n r h
  cases (show some (4095, NodeRec.reset) = some (n, r) from h)
  decide

/-- The authority's learned port DOWN, and UP with all 64 notice places taken; another port than the authority's. -/
theorem witness_told_of_place :
    (let s := setPort 0 ⟨false, 1, 0, 0, []⟩ noticing; let u := setPort 0 ⟨true, (s.port 0).round, 0, 0, []⟩ s
     (s.port 0).up = false ∧ u.authority = some (4095, { NodeRec.reset with learned := some 0, state := .present }))
    ∧ (let s := setPort 0 ⟨true, 1, 0, 64, List.replicate 64 ⟨noticeFrame 97 5, false⟩⟩ noticing
       (s.port 0).up = true ∧ (s.port 0).egress = ⟨noticeFrame 97 5, false⟩ :: List.replicate 63 ⟨noticeFrame 97 5, false⟩
        ∧ (noticeFrame 97 5).notice = true ∧ s.authority = noticing.authority)
    ∧ (noticing.port 2).up = false ∧ (∀ n r, noticing.authority = some (n, r) → r.learned ≠ some 2) := by
  refine ⟨by decide, by decide, by decide, ?_⟩
  intro n r h
  cases (show some (4095, { NodeRec.reset with learned := some 0, state := .present }) = some (n, r) from h)
  decide

/-- A machine in use: a SOLE loan, a SHARED entry behind it, a watch, a held claim, an event, a command waiting. -/
def running : State :=
  { raise .torn ⟨10, 0, 41⟩ (withQueue [entry 6 2 .shared 1 9] (withLoan (held .sole))) with
    watches := [(watchKey 10 6, ⟨6, 10, 41, .armed⟩)]
    fences := { base.fences with held := [(0, ⟨waiting 1 5 40, .claim 11 .shared 1 30, 52, 1⟩)] }
    pending := [.frameLeaves 0] }

/-- Its step answers a next state. -/
theorem running_steps : ∃ t, step running = .next t := ⟨_, rfl⟩

/-- With one loan in the table, in slot 0. -/
theorem only_slot {s : State} {l : LoanRec} (h : s.loans.table = [(0, l)]) (n : Nat) :
    s.loan n = if n = 0 then l else LoanRec.free 0 := by
  unfold State.loan Tab.val
  rw [h]
  by_cases e : n = 0
  · subst e; rfl
  · simp [Tab.look, e, Ne.symm e]

/-- A table of small keys lists no great one. -/
theorem unlisted {α : Type} {t : Tab α} {k e : Nat} (all : ∀ x ∈ t, x.1 < k) (h : k ≤ e) : t.look e = none := by
  cases g : t.look e with
  | none => rfl
  | some v => exact absurd (all _ (Tab.mem_of_look g)) (Nat.not_lt.2 h)

theorem witness_capacities : running.withinCapacity ∧ ∃ t, step running = .next t := by
  refine ⟨⟨?_, by decide, by decide, by decide, by decide, ?_, ?_, ?_⟩, running_steps⟩
  · unfold State.tables
    decide
  · exact forall_bay (P := fun y => y.queue.length ≤ 16) (by decide) (by decide)
  · intro n h
    rw [only_slot (l := held .sole) (by rfl), if_neg (by omega)]
    rfl
  · exact fun e h => ⟨unlisted (by decide) h, rfl⟩

theorem witness_one_authority : running.oneAuthority ∧ ∃ t, step running = .next t :=
  ⟨⟨by decide, one_of (n := 4095) (by decide) (by decide)⟩, running_steps⟩

theorem witness_port_counts : running.portCounts ∧ ∃ t, step running = .next t := by
  refine ⟨?_, running_steps⟩
  unfold State.portCounts
  decide

theorem witness_watches_current : running.watchesCurrent ∧ ∃ t, step running = .next t := by
  refine ⟨?_, running_steps⟩
  unfold State.watchesCurrent
  decide

theorem witness_loans_apart : running.loansApart ∧ ∃ t, step running = .next t := by
  refine ⟨⟨by decide, ?_, ?_⟩, running_steps⟩
  · intro a b ne ha hb _
    rw [only_slot (l := held .sole) (by rfl)] at ha hb
    split at ha
    · split at hb
      · omega
      · exact absurd rfl hb
    · exact absurd rfl ha
  · intro n h
    rw [only_slot (l := held .sole) (by rfl)] at h ⊢
    split at h
    · cases h
    · next e => simp [e, LoanRec.free]

theorem witness_event_shape : running.eventShape ∧ ∃ t, step running = .next t := by
  refine ⟨⟨by decide, fun k => ?_⟩, running_steps⟩
  by_cases h : k < 16
  · exact (by decide : ∀ k : Fin 16, (running.event k.val).detail.isSome = (running.event k.val).flag
      ∧ ((running.event k.val).noticed = true → (running.event k.val).flag = true) ∧ (running.event k.val).level ≤ 3) ⟨k, h⟩
  · have : running.event k = EventRec.reset := by simp [State.event, h]
    rw [this]
    decide

/-- The map in use, and with a DRAINING load whose swap is the next command. -/
theorem witness_map_legal :
    (running.mapLegal ∧ ∃ t, step running = .next t)
    ∧ (let s := { draining none .force base with pending := [.swap] }
       s.mapLegal ∧ s.loader.state = .draining ∧ ∃ t, step s = .next t) :=
  ⟨⟨⟨legalMap_of_checkWalk (by decide), fun h => absurd h (by decide)⟩, running_steps⟩,
    ⟨legalMap_of_checkWalk (by decide), fun _ => legalMap_of_checkWalk (by decide)⟩, rfl, _, rfl⟩

/-- The one ARMED watch on extent 10 is node 6's, learned on N1, with the last notice place free and with none free. -/
theorem witness_change_told :
    ∀ n, n = 63 ∨ n = 64 → let s := setPort 1 { base.port 1 with notices := n } (watched .armed)
      s.watches.filter (fun y => decide (y.2.extent ∈ [10]) && decide (y.2.state = .armed)) = [(watchKey 10 6, ⟨6, 10, 41, .armed⟩)]
        ∧ s.node 6 = some node6 ∧ node6.learned = some 1 ∧ s.noticeFree 1 = decide (n = 63) := by
  intro n h
  rcases h with rfl | rfl
  all_goals decide

/-! ### Events and the Lease Clock -/

/-- An occurrence on a clear flag and on a set one; a record that qualifies, and none. -/
theorem witness_occurrences :
    (base.event EventKind.torn.num).flag = false ∧ (running.event EventKind.torn.num).flag = true
    ∧ (noticing.authority = some (4095, { NodeRec.reset with learned := some 0, state := .present })
      ∧ (noticing.port 0).up = true ∧ (noticing.port 0).notices < 64 ∧ (noticing.event 9).qualifies noticing.events.mask = true
      ∧ (noticing.event 9).detail = some ⟨4, 1, 0⟩ ∧ ∀ j, j < 9 → (noticing.event j).qualifies noticing.events.mask = false)
    ∧ (let s := setPort 0 { base.port 0 with notices := 64 } noticing
       s.authority = noticing.authority ∧ 64 ≤ (s.port 0).notices)
    ∧ (let s := setEvents ⟨Vector.replicate 16 EventRec.reset, 3⟩ noticing
       ∀ k, k < 16 → (s.event k).qualifies s.events.mask = false)
    ∧ (noticeTest noticing).authority = noticing.authority := by
  refine ⟨by decide, by decide, by decide, by decide, by decide, by decide⟩

/-- A command of the authority is taken. -/
theorem witness_events_taken :
    base.oneAuthority
    ∧ (let f := { auth with body := List.replicate 16 3 }; Taken base 1 64 f (legalLevels f))
    ∧ (let f := { auth with argA := 0 }; Taken base 1 65 f (legalMask f))
    ∧ (let f := { auth with argA := 3 }; Taken base 1 65 f (legalMask f))
    ∧ (let f := { auth with extent := 0xFFFF }; Taken presence 1 66 f (legalPlain f) ∧ presence.oneAuthority
        ∧ f.extent.getLsbD EventKind.badFrame.num = true)
    ∧ (let f := { auth with extent := 0 }; Taken presence 1 66 f (legalPlain f) ∧ f.extent.getLsbD EventKind.expiryC0.num = false) := by
  repeat' apply And.intro
  all_goals first | decide | exact base_one

/-- An EVENT_NOTICE that changes nothing: no record qualifies, or with one that does no notice place is free. -/
theorem witness_no_notice :
    exec .eventNotice base = .next base
    ∧ (let s := setPort 0 { noticing.port 0 with notices := 64 } noticing; (s.event 9).qualifies s.events.mask = true ∧ exec .eventNotice s = .next s) :=
  ⟨rfl, by decide, rfl⟩

/-- One record newly qualifies: BAY_PRESENCE by its level, and by the mask level, with the last notice place free. -/
theorem witness_newly_qualifies :
    (let s := setPort 0 { base.port 0 with notices := 63 } presence
     let f := { auth with body := List.replicate 9 0 ++ [1] ++ List.replicate 6 3 }
     s.oneAuthority ∧ Taken s 0 64 f (legalLevels f) ∧ (∀ j, j < 16 → (s.event j).qualifies s.events.mask = false)
      ∧ (s.port 0).notices < 64 ∧ (s.event 9).flag = true ∧ (s.event 9).noticed = false ∧ (s.event 9).detail = some ⟨4, 1, 0⟩
      ∧ s.events.mask < bodyByte f 9
      ∧ (∀ j, j < 16 → j ≠ 9 → (s.event j).flag = true → (s.event j).noticed = false → bodyByte f j ≤ s.events.mask))
    ∧ (let s := setEvents { noticing.events with mask := 2 } noticing; let f := { auth with argA := 1 }
       s.oneAuthority ∧ Taken s 0 65 f (legalMask f) ∧ (∀ j, j < 16 → (s.event j).qualifies s.events.mask = false)
        ∧ (s.port 0).notices < 64 ∧ (s.event 9).flag = true ∧ (s.event 9).noticed = false ∧ (s.event 9).detail = some ⟨4, 1, 0⟩
        ∧ f.argA.toNat < (s.event 9).level
        ∧ (∀ j, j < 16 → j ≠ 9 → (s.event j).flag = true → (s.event j).noticed = false → (s.event j).level ≤ f.argA.toNat)) := by
  repeat' apply And.intro
  all_goals first | decide | exact one_of (n := 4095) (by decide) (by decide)

theorem witness_clock_taken :
    base.oneAuthority ∧ Taken base 0 60 auth (legalPlain auth) ∧ Taken base 0 61 auth (legalPlain auth)
    ∧ (base.node 5 = some node5 ∧ node5.role = .render ∧ node5.state ≠ .barred ∧ node5.tags.getLsbD 1 = false
      ∧ (base.port 0).up = true ∧ (base.port 0).reservations < 448)
    ∧ base.clock.run = .running ∧ (setClock { base.clock with run := .stopped } base).clock.run = .stopped
    ∧ (let f := { auth with argA := 0, units := 1 }; Taken base 0 59 f (legalLeaseClass f))
    ∧ (let f := { auth with argA := 3, units := 0xFFFF }; Taken base 0 59 f (legalLeaseClass f))
    ∧ Taken base 0 62 auth (legalPlain auth) := by
  repeat' apply And.intro
  all_goals first | decide | exact base_one

/-- A tick that fires a tap, one that does not, and one that the pending STOP holds. -/
theorem witness_lease_tick :
    (base.clock.count + 1).toNat % 256 ≠ 0
    ∧ (let s := setClock { base.clock with count := 254 } base; (s.clock.count + 1).toNat % 256 ≠ 0)
    ∧ (of (step { base with clock := { base.clock with order := some .stop }, pending := [.leaseTick] }) (fun t => t.clock.run))
        = some .stopped := by decide

/-- A loan with 2 units, an entry with 2 s, a hold with 2 s, an open timer with 2 s; the count as given. -/
def aging (count : Nat) : State :=
  setLoader { opened.loader with openTimer := some 2 }
    (setHeld [(15, ⟨waiting 1 5 40, .claim 11 .shared 1 30, 2, 1⟩)]
      (setClock { base.clock with count := BitVec.ofNat 14 count }
        (withQueue [entry 6 2 .shared 1 2] (withLoan { held .sole with remaining := 2 }))))

/-- The hypotheses of the tick on loans, waits, holds and timers, at the last count, at a 1 Hz tap and at none. -/
theorem witness_units (count : Nat) : (aging count).tables ∧ (aging count).clock.order = none
    ∧ (aging count).clock.run = .running
    ∧ (∀ n, ((aging count).loan n).state = .held ∨ ((aging count).loan n).state = .upgrading → 1 < ((aging count).loan n).remaining)
    ∧ (∀ e, ∀ c ∈ ((aging count).xl e).queue, 1 < c.wait)
    ∧ (∀ x ∈ (aging count).fences.held, 1 < x.2.remaining)
    ∧ ((aging count).loader.openTimer.isSome = true → (aging count).loader.state = .opened)
    ∧ ((aging count).loader.drainTimer.isSome = true → (aging count).loader.state = .draining)
    ∧ (∀ w, (aging count).loader.openTimer = some w → 1 < w) ∧ (∀ w, (aging count).loader.drainTimer = some w → 1 < w) := by
  refine ⟨?_, rfl, rfl, ?_, ?_, ?_, ?_, ?_, ?_, ?_⟩
  · exact (by unfold State.tables; decide : (aging 0).tables)
  · exact forall_val (P := fun l : LoanRec => l.state = .held ∨ l.state = .upgrading → 1 < l.remaining)
      (by decide : ∀ x ∈ (aging 0).loans.table, x.2.state = .held ∨ x.2.state = .upgrading → 1 < x.2.remaining) (by decide)
  · exact forall_val (P := fun x : ExtentLoans => ∀ c ∈ x.queue, 1 < c.wait)
      (by decide : ∀ x ∈ (aging 0).loans.extents, ∀ c ∈ x.2.queue, 1 < c.wait) (by decide)
  · exact (by decide : ∀ x ∈ (aging 0).fences.held, 1 < x.2.remaining)
  · intro _; rfl
  · intro h; cases h
  · intro w h; cases h; decide
  · intro w h; cases h

/-- Counts at which all taps, the 1 Hz tap and none fire. -/
theorem witness_counts :
    ((aging 16383).clock.count + 1).toNat % 16384 = 0
    ∧ (((aging 1023).clock.count + 1).toNat % 1024 = 0 ∧ ((aging 1023).clock.count + 1).toNat % 4096 ≠ 0)
    ∧ (((aging 255).clock.count + 1).toNat % 256 = 0 ∧ ((aging 255).clock.count + 1).toNat % 1024 ≠ 0)
    ∧ ((aging 256).clock.count + 1).toNat % 256 ≠ 0 := by decide

/-- The clock at a count, RUNNING with no order. -/
def atCount (count : Nat) (s : State) : State := setClock { base.clock with count := BitVec.ofNat 14 count } s

/-- A state as the tick hands it to the one block that has something to age. -/
def advanced (s : State) : State :=
  { s with clock := { s.clock with count := s.clock.count + 1 }, choices := s.choices + 1 }

/-- One loan's last unit: at the 4 Hz tap alone, and at all taps with a claim that still waits. -/
theorem witness_due_loan :
    (let s := atCount 255 (withLoan { held .sole with cls := 0, remaining := 1 })
     s.clock.order = none ∧ s.clock.run = .running ∧ s.ageingBlocks (tapsAt (s.clock.count + 1)) = [.loans]
      ∧ OneDue (tapsAt (s.clock.count + 1)) (advanced s) .loans (.leaseExpiry 0)
          (takeUnits (tapsAt (s.clock.count + 1)) (advanced s)))
    ∧ (let s := atCount 16383 (withQueue [entry 6 2 .sole 1 2] (withLoan { held .sole with cls := 3, remaining := 1 }))
       s.ageingBlocks (tapsAt (s.clock.count + 1)) = [.loans]
        ∧ OneDue (tapsAt (s.clock.count + 1)) (advanced s) .loans (.leaseExpiry 0)
            (takeUnits (tapsAt (s.clock.count + 1)) (advanced s))) := by
  refine ⟨⟨rfl, rfl, by decide, ?_⟩, by decide, ?_⟩
  all_goals
    refine .loan 0 (by unfold State.tables; decide) (by decide) (by decide) (by decide) ?_ ?_
  · intro n h
    have one : (withLoan { held .sole with cls := 0, remaining := 1 }).loan n = LoanRec.free 0 :=
      (only_slot (l := { held .sole with cls := 0, remaining := 1 }) (by decide) n).trans (if_neg h)
    intro g
    have g : ((withLoan { held .sole with cls := 0, remaining := 1 }).loan n).state = .held
        ∨ ((withLoan { held .sole with cls := 0, remaining := 1 }).loan n).state = .upgrading := g
    rw [one] at g
    exact absurd g (by decide)
  · intro h; exact absurd h (by decide)
  · intro n h
    have one : (withLoan { held .sole with cls := 3, remaining := 1 }).loan n = LoanRec.free 0 :=
      (only_slot (l := { held .sole with cls := 3, remaining := 1 }) (by decide) n).trans (if_neg h)
    intro g
    have g : ((withLoan { held .sole with cls := 3, remaining := 1 }).loan n).state = .held
        ∨ ((withLoan { held .sole with cls := 3, remaining := 1 }).loan n).state = .upgrading := g
    rw [one] at g
    exact absurd g (by decide)
  · intro _
    exact forall_val (t := (withQueue [entry 6 2 .sole 1 2] (withLoan (held .sole))).loans.extents)
      (P := fun x : ExtentLoans => ∀ c ∈ x.queue, 1 < c.wait) (by decide) (by decide)

/-- The last second of a claim behind a loan that has units left. -/
theorem witness_due_wait :
    let s := atCount 1023 (withQueue [entry 6 2 .shared 1 1, entry 7 2 .shared 1 2] (withLoan { held .sole with remaining := 2 }))
    s.ageingBlocks (tapsAt (s.clock.count + 1)) = [.loans]
      ∧ OneDue (tapsAt (s.clock.count + 1)) (advanced s) .loans (.claimWaitTimeout 10)
          (takeUnits (tapsAt (s.clock.count + 1)) (advanced s)) := by
  refine ⟨by decide, .wait 10 (by unfold State.tables; decide) (by decide) (by decide) ?_ ?_⟩
  · exact forall_key (t := (withQueue [entry 6 2 .shared 1 1, entry 7 2 .shared 1 2] (withLoan (held .sole))).loans.extents)
      (P := fun n (x : ExtentLoans) => n ≠ 10 → ∀ c ∈ x.queue, 1 < c.wait) (by decide)
      (fun _ _ c hc => absurd hc (List.not_mem_nil))
  · exact forall_val (t := (withLoan { held .sole with remaining := 2 }).loans.table)
      (P := fun l : LoanRec => l.state = .held ∨ l.state = .upgrading →
        (tapsAt 1024).ofClass l.cls = true → 1 < l.remaining) (by decide) (by decide)

/-- The last second of a hold, of the open timer and of the drain timer, with nothing else at that tap. -/
theorem witness_due_timers :
    (let s := atCount 1023 (setHeld [(0, ⟨waiting 1 5 40, .claim 11 .shared 1 30, 2, 1⟩),
         (15, ⟨waiting 1 5 41, .claim 11 .shared 1 30, 1, 1⟩)] base)
     s.ageingBlocks (tapsAt (s.clock.count + 1)) = [.holds]
      ∧ ∃ v, OneDue (tapsAt (s.clock.count + 1)) (advanced s) .holds (.holdTimeout 15) v)
    ∧ (let s := atCount 1023 (setLoader { opened.loader with openTimer := some 1 } base)
       s.ageingBlocks (tapsAt (s.clock.count + 1)) = [.loader]
        ∧ ∃ v, OneDue (tapsAt (s.clock.count + 1)) (advanced s) .loader .openTimeout v)
    ∧ (let s := atCount 1023 (draining (some 1) .force base)
       s.ageingBlocks (tapsAt (s.clock.count + 1)) = [.loader]
        ∧ ∃ v, OneDue (tapsAt (s.clock.count + 1)) (advanced s) .loader .drainLimitExpiry v) := by
  refine ⟨⟨by decide, _, .hold 15 ⟨waiting 1 5 41, .claim 11 .shared 1 30, 1, 1⟩ (by unfold State.tables; decide) (by decide)
    (by decide) (by decide)⟩, ⟨by decide, _, .openTimer (by decide) (by decide)⟩,
    ⟨by decide, _, .drainTimer (by decide) (by decide)⟩⟩

/-- A bay in each state, and an extent that ends with the disk of B0 and one block beyond it. -/
theorem witness_policy :
    (base.bay 1).state = .absent ∧ (base.bay 2).state = .service ∧ (pendingBay.bay 0).state = .servicePending
    ∧ ((updBay 0 (fun y => { y with state := .failed }) base).bay 0).state = .failed
    ∧ ((base.bay 0).state = .ready ∧ 48 + 2 ^ 4 ≤ (base.bay 0).capacity ∧ (base.bay 0).capacity < 64 + 2 ^ 0)
    ∧ Policy.output.allows .sole = true ∧ Policy.library.allows .shared = false := by decide

/-! ### Claims -/

/-- A claim of node `n` with tag 1 on an extent. -/
def claimBy (n e a b : Nat) : Frame :=
  { req n 1 with extent := BitVec.ofNat 16 e, argA := BitVec.ofNat 8 a, argB := BitVec.ofNat 8 b }

/-- The steps before the fences and after them: absent extent, bay ABSENT, a policy that does not allow, a node without
write permission. -/
theorem witness_claim_policy :
    (let f := claimBy 6 4095 0 0; Taken base 1 1 f (legalClaim f) ∧ base.node f.node.toNat = some node6 ∧ base.extent (extentOf f) = none)
    ∧ (let f := claimBy 6 12 0 0; Taken base 1 1 f (legalClaim f) ∧ base.extent (extentOf f) = some ext12
      ∧ base.fenceAnswer (claimMode f).fencedKind ext12.bay ext12.base (2 ^ ext12.k) = .pass
      ∧ base.effective ext12 = .closed .bayDown)
    ∧ (let f := claimBy 6 11 4 0; Taken base 1 1 f (legalClaim f) ∧ base.extent (extentOf f) = some ext11
      ∧ base.fenceAnswer (claimMode f).fencedKind ext11.bay ext11.base (2 ^ ext11.k) = .pass
      ∧ base.effective ext11 = .lent .library ∧ Policy.library.allows (claimMode f) = false)
    ∧ (let f := claimBy 7 10 7 0; Taken base 1 1 f (legalClaim f) ∧ base.extent (extentOf f) = some ext10
      ∧ base.fenceAnswer (claimMode f).fencedKind ext10.bay ext10.base (2 ^ ext10.k) = .pass
      ∧ base.effective ext10 = .lent .output ∧ claimMode f = .sole ∧ base.node 7 = some node7 ∧ node7.write = false) := by
  repeat' apply And.intro
  all_goals decide

/-- Node 6 with its quota used up: held 63 and waiting 1. -/
def full6 : State := updNode 6 (fun r => { r with held := 63, waiting := 1 }) base

/-- The steps behind the policy: drain mark, an entry of the sender, its SOLE, SHARED, UPGRADING loan, its quota. -/
theorem witness_claim_duplicates :
    (let f := claimBy 6 10 4 0; ∀ s, s = base ∨ s = setDrainMark 10 base → Taken s 1 1 f (legalClaim f)
      ∧ s.node f.node.toNat = some node6 ∧ s.extent (extentOf f) = some ext10
      ∧ s.fenceAnswer (claimMode f).fencedKind ext10.bay ext10.base (2 ^ ext10.k) = .pass
      ∧ s.effective ext10 = .lent .output ∧ Policy.output.allows (claimMode f) = true ∧ node6.write = true)
    ∧ ((setDrainMark 10 base).xl 10).drainMark = true ∧ (base.xl 10).drainMark = false
    ∧ (∃ c ∈ ((withQueue [entry 6 2 .sole 1 9] base).xl 10).queue, c.req.node = 6)
    ∧ (∀ c ∈ ((withQueue [entry 5 2 .sole 1 9] base).xl 10).queue, c.req.node ≠ 6)
    ∧ ((withLoan (held .shared)).ownLoan 5 10 = some (0, held .shared) ∧ claimMode (claimBy 5 10 0 0) = .shared)
    ∧ ((withLoan (held .sole)).ownLoan 5 10 = some (0, held .sole) ∧ (held .sole).mode = .sole)
    ∧ ((withLoan { held .shared with state := .upgrading }).ownLoan 5 10 = some (0, { held .shared with state := .upgrading }))
    ∧ (full6.ownLoan 6 10 = none ∧ full6.node 6 = some { node6 with held := 63, waiting := 1 } ∧ node6.quota ≤ 63 + 1) := by
  refine ⟨?_, ?_⟩
  · intro f s h
    rcases h with rfl | rfl
    all_goals
      repeat' apply And.intro
      all_goals decide
  · decide

/-- A claim of node 6 on extent 10 passes. -/
theorem passes {s : State} {f : Frame} (hn : s.node f.node.toNat = some node6)
    (he : s.extent (extentOf f) = some ext10)
    (hf : s.fenceAnswer (claimMode f).fencedKind ext10.bay ext10.base (2 ^ ext10.k) = .pass)
    (hp : s.effective ext10 = .lent .output) (hd : (s.xl (extentOf f)).drainMark = false)
    (hq : ∀ c ∈ (s.xl (extentOf f)).queue, c.req.node ≠ f.node.toNat)
    (hl : ∀ x ∈ s.loansOn (extentOf f), x.2.holder ≠ f.node.toNat) : ClaimPasses s f ext10 node6 :=
  ⟨hn, he, hf, ⟨.output, hp, by cases claimMode f <;> rfl⟩, fun _ => rfl, hd, hq, hl, by decide⟩

/-- The first slots of the Loan Table, as many as given, hold a loan of node 7 on extent 11. -/
def slotsTaken (k : Nat) : State :=
  { base with loans := { base.loans with
      table := (List.range k).map (fun n => (n, { held .shared with holder := 7, extent := 11 })) } }

theorem slotsTaken_loan (k n : Nat) (h : n < k) :
    (slotsTaken k).loan n = { held .shared with holder := 7, extent := 11 } := by
  have rise : (slotsTaken k).loans.table.rising = true := by
    rw [Tab.rising_iff]
    unfold slotsTaken
    rw [List.pairwise_map]
    exact List.pairwise_lt_range
  have : (slotsTaken k).loans.table.look n = some { held .shared with holder := 7, extent := 11 } :=
    Tab.look_of_mem rise (List.mem_map.2 ⟨n, List.mem_range.2 h, rfl⟩)
  unfold State.loan Tab.val
  rw [this]
  rfl

theorem slotsTaken_free (k fuel n : Nat) (h : n + fuel ≤ k) : freeSlotFrom (slotsTaken k) fuel n = none := by
  induction fuel generalizing n with
  | zero => rfl
  | succ m ih =>
    unfold freeSlotFrom
    rw [slotsTaken_loan k n (by omega), if_neg (by decide), ih (n + 1) (by omega)]

theorem slotsTaken_loansOn (k : Nat) : (slotsTaken k).loansOn 10 = [] := by
  refine List.filter_eq_nil_iff.2 ?_
  intro x hx
  obtain ⟨n, _, rfl⟩ := List.mem_map.1 hx
  exact Bool.false_ne_true

/-- A SOLE claim of node 6 on extent 10 meets the hypotheses of TABLE_FULL: no slot is FREE. -/
theorem witness_table_full (k : Nat) (h : k = 8192) :
    let f := claimBy 6 10 7 1
    Taken (slotsTaken k) 1 1 f (legalClaim f) ∧ ClaimPasses (slotsTaken k) f ext10 node6
      ∧ ((slotsTaken k).xl (extentOf f)).queue = [] ∧ (slotsTaken k).summary (extentOf f) = .idle
      ∧ (slotsTaken k).lowestFree = none := by
  refine ⟨?_, passes ?_ ?_ ?_ ?_ ?_ ?_ ?_, ?_, ?_, ?_⟩
  · exact (by unfold Taken; decide : Taken base 1 1 (claimBy 6 10 7 1) (legalClaim (claimBy 6 10 7 1)))
  · exact (by decide : base.node 6 = some node6)
  · exact (by decide : base.extent 10 = some ext10)
  · exact (by decide : base.fenceAnswer .soleClaim ext10.bay ext10.base (2 ^ ext10.k) = .pass)
  · exact (by decide : base.effective ext10 = .lent .output)
  · exact (by decide : (base.xl 10).drainMark = false)
  · exact (by decide : ∀ c ∈ (base.xl 10).queue, c.req.node ≠ 6)
  · change ∀ x ∈ (slotsTaken k).loansOn 10, _
    rw [slotsTaken_loansOn]
    decide
  · exact (by decide : (base.xl 10).queue = [])
  · change (slotsTaken k).summary 10 = _
    unfold State.summary
    rw [slotsTaken_loansOn]
  · exact slotsTaken_free k 8192 0 (by omega)

/-- SHARED and SOLE on an IDLE extent, SHARED on a SHARED one. -/
theorem witness_granted_at_once :
    (let f := claimBy 6 10 3 0; Taken base 1 1 f (legalClaim f) ∧ ClaimPasses base f ext10 node6 ∧ (base.xl (extentOf f)).queue = []
      ∧ base.summary (extentOf f) ≠ .sole ∧ base.lowestFree = some 0)
    ∧ (let f := claimBy 6 10 7 1; Taken base 1 1 f (legalClaim f) ∧ ClaimPasses base f ext10 node6 ∧ claimMode f = .sole
      ∧ base.summary (extentOf f) = .idle)
    ∧ (let f := claimBy 6 10 0 0; let s := withLoan (held .shared)
       Taken s 1 1 f (legalClaim f) ∧ ClaimPasses s f ext10 node6 ∧ (s.xl (extentOf f)).queue = []
      ∧ claimMode f = .shared ∧ s.summary (extentOf f) = .shared ∧ s.lowestFree = some 1) := by
  refine ⟨⟨?_, passes ?_ ?_ ?_ ?_ ?_ ?_ ?_, ?_, ?_, ?_⟩, ⟨?_, passes ?_ ?_ ?_ ?_ ?_ ?_ ?_, ?_, ?_⟩,
    ⟨?_, passes ?_ ?_ ?_ ?_ ?_ ?_ ?_, ?_, ?_, ?_, ?_⟩⟩
  all_goals first | decide | (unfold Taken; decide)

/-- The queue of extent 11 as long as given. -/
def pool (n : Nat) (s : State) : State := updXl 11 (fun x => { x with queue := List.replicate n (entry 7 3 .shared 1 9) }) s

/-- A queue, a SOLE loan, a loan before a SOLE claim; wait limits 0 and 1; the pool at 1023 and at 1024. -/
theorem witness_must_wait :
    (∀ b, b = 0 ∨ b = 1 → let f := claimBy 6 10 0 b; let s := withQueue [entry 5 2 .sole 1 9] base
       Taken s 1 1 f (legalClaim f) ∧ ClaimPasses s f ext10 node6 ∧ (s.xl (extentOf f)).queue ≠ [] ∧ s.poolUsed < 1024)
    ∧ (let f := claimBy 6 10 0 1; let s := withLoan (held .sole)
       Taken s 1 1 f (legalClaim f) ∧ ClaimPasses s f ext10 node6 ∧ claimMode f = .shared ∧ s.summary (extentOf f) = .sole)
    ∧ (let f := claimBy 6 10 4 1; let s := pool 1023 (withLoan (held .shared))
       Taken s 1 1 f (legalClaim f) ∧ ClaimPasses s f ext10 node6 ∧ claimMode f = .sole ∧ s.summary (extentOf f) ≠ .idle
         ∧ s.poolUsed < 1024)
    ∧ (let f := claimBy 6 10 4 1; let s := pool 1024 (withLoan (held .shared))
       Taken s 1 1 f (legalClaim f) ∧ ClaimPasses s f ext10 node6 ∧ claimMode f = .sole ∧ s.summary (extentOf f) ≠ .idle
         ∧ 1024 ≤ s.poolUsed) := by
  refine ⟨?_, ⟨?_, passes ?_ ?_ ?_ ?_ ?_ ?_ ?_, ?_, ?_⟩, ⟨?_, passes ?_ ?_ ?_ ?_ ?_ ?_ ?_, ?_, ?_, ?_⟩,
    ⟨?_, passes ?_ ?_ ?_ ?_ ?_ ?_ ?_, ?_, ?_, ?_⟩⟩
  · intro b h
    rcases h with rfl | rfl
    all_goals
      refine ⟨?_, passes ?_ ?_ ?_ ?_ ?_ ?_ ?_, ?_, ?_⟩
      all_goals first | decide | (unfold Taken; decide)
  all_goals first | decide +kernel | (unfold Taken; decide +kernel)

/-- An upgrade: a pending one; the one loan; a second loan with wait limit 0, with the pool free and with it full. -/
theorem witness_upgrade :
    (let f := claimBy 5 10 4 0; let s := withLoan (held .shared)
     s.tables ∧ Taken s 0 1 f (legalClaim f) ∧ claimMode f = .sole ∧ (s.node f.node.toNat).map (·.write) = some true
      ∧ s.extent (extentOf f) = some ext10 ∧ s.fenceAnswer .soleClaim ext10.bay ext10.base (2 ^ ext10.k) = .pass
      ∧ (s.effective ext10 = .lent .output ∧ Policy.output.allows .sole = true) ∧ (s.xl (extentOf f)).drainMark = false
      ∧ (∀ c ∈ (s.xl (extentOf f)).queue, c.req.node ≠ f.node.toNat) ∧ s.ownLoan f.node.toNat (extentOf f) = some (0, held .shared)
      ∧ s.pendingUpgrade (extentOf f) = none ∧ s.loansOn (extentOf f) = [(0, held .shared)])
    ∧ (∀ b n st, (b = 0 ∨ b = 1) → (n = 1023 ∨ n = 1024) → (st = LoanState.held ∨ st = .upgrading) →
       let f := claimBy 5 10 4 b
       let s := pool n (setLoan 1 { held .shared with holder := 6, state := st } (withLoan (held .shared)))
       s.tables ∧ Taken s 0 1 f (legalClaim f) ∧ (∀ c ∈ (s.xl (extentOf f)).queue, c.req.node ≠ f.node.toNat)
        ∧ s.ownLoan f.node.toNat (extentOf f) = some (0, held .shared)
        ∧ s.pendingUpgrade (extentOf f) = (if st = .held then none else some ⟨1, 3⟩)
        ∧ s.loansOn (extentOf f) ≠ [(0, held .shared)] ∧ s.poolUsed = n ∧ f.argB.toNat = b) := by
  refine ⟨?_, ?_⟩
  · repeat' apply And.intro
    all_goals decide
  · intro b n st hb hn hs
    rcases hb with rfl | rfl <;> rcases hn with rfl | rfl <;> rcases hs with rfl | rfl
    all_goals
      repeat' apply And.intro
      all_goals decide +kernel

/-! ### Loans -/

/-- Node 5's requests on its handle, and on the first and the last slot, which are FREE. -/
theorem witness_handle_tests :
    (∀ f : Frame, f = reqOn 5 1 0 0 ∨ f = reqOn 5 1 8191 15 →
      ¬ base.heldBy (handleOf f) f.node.toNat ∧ Taken base 0 2 f (legalByHandle f) ∧ Taken base 0 3 f (legalByHandle f)
        ∧ Taken base 0 4 f (legalByHandle f) ∧ Taken base 0 5 { f with argB := 1 } (legalRead { f with argB := 1 }))
    ∧ (let f := oneBlock (reqOn 5 1 0 0); ¬ base.heldBy (handleOf f) f.node.toNat ∧ Taken base 0 6 f (legalWrite f))
    ∧ (let f := reqOn 5 1 0 3; let s := withLoan { held .sole with state := .closing }
       s.heldBy (handleOf f) f.node.toNat ∧ (s.loan (slotOf f)).state = .closing ∧ Taken s 0 2 f (legalByHandle f)
        ∧ Taken s 0 3 f (legalByHandle f) ∧ Taken s 0 4 f (legalByHandle f)) := by
  refine ⟨?_, ⟨by unfold State.heldBy; decide, by unfold Taken; decide +kernel⟩, ?_⟩
  · intro f h
    rcases h with rfl | rfl
    all_goals
      refine ⟨by unfold State.heldBy; decide, ?_⟩
      unfold Taken
      decide
  · unfold Taken State.heldBy
    decide

/-- RENEW and DOWNGRADE: HELD and UPGRADING, SHARED, outstanding, no write and one, doubtful or not. -/
theorem witness_renew_downgrade :
    (∀ l : LoanRec, l = held .sole ∨ l = held .shared ∨ l = { held .shared with state := .upgrading }
        ∨ l = { held .sole with outstanding := 1 } ∨ l = { held .sole with writes := 1, doubtful := true } →
      let f := reqOn 5 1 0 3; let s := withLoan l
      Taken s 0 2 f (legalByHandle f) ∧ Taken s 0 3 f (legalByHandle f) ∧ s.heldBy (handleOf f) f.node.toNat
        ∧ s.loan (slotOf f) = l ∧ l.state ≠ .closing ∧ (s.xl l.extent).queue = []) := by
  intro l h
  rcases h with rfl | rfl | rfl | rfl | rfl
  all_goals
    unfold Taken State.heldBy
    decide

/-- DOWNGRADE with a watch on the extent, at the port of the reply, and claims waiting: with writes and without, doubtful or not,
a SHARED and a SOLE head. -/
theorem witness_downgrade_waits :
    ∀ (l : LoanRec) (k : EntryKind), l = held .sole ∨ l = { held .sole with writes := 2 }
        ∨ l = { held .sole with writes := 1, doubtful := true } → k = .shared ∨ k = .sole →
      let f := reqOn 5 1 0 3
      let s := setWatches [(watchKey 10 6, ⟨6, 10, 41, .armed⟩)] (withQueue [entry 6 2 k 1 9, entry 7 2 .sole 1 9] (withLoan l))
      Taken s 1 3 f (legalByHandle f) ∧ s.heldBy (handleOf f) f.node.toNat ∧ s.loan (slotOf f) = l ∧ l.state ≠ .closing
        ∧ l.mode = .sole ∧ l.outstanding = 0 ∧ (s.xl l.extent).queue = entry 6 2 k 1 9 :: [entry 7 2 .sole 1 9]
        ∧ (s.admitted 1 3 f).watches.filter (fun y => decide (y.2.extent ∈ [10]) && decide (y.2.state = .armed))
            = [(watchKey 10 6, ⟨6, 10, 41, .armed⟩)] ∧ (s.admitted 1 3 f).noticeFree 1 = true := by
  intro l k h g
  rcases h with rfl | rfl | rfl <;> rcases g with rfl | rfl
  all_goals
    unfold Taken State.heldBy
    decide

/-- Nothing waits on extent 10. -/
theorem quiet_of {s : State} (h : (s.xl 10).queue = [] ∧ s.loans.tableWait = [] ∧ s.loader.state ≠ .draining)
    (b : (s.extent 10).all (fun r => decide ((s.bay r.bay).state ≠ .servicePending)) = true) : s.quiet 10 :=
  ⟨h.1, h.2.1, h.2.2, forall_found b⟩

/-- RELEASE, REVOKE LOAN and LEASE_EXPIRY of loans with nothing outstanding: of both modes, with and without writes. -/
theorem witness_quiet_ends :
    ∀ l : LoanRec, l = held .sole ∨ l = held .shared ∨ l = { held .sole with writes := 1, doubtful := true } →
      let f := reqOn 5 1 0 3; let g := reqOn 4095 0 0 3; let s := withLoan { l with remaining := 0 }
      Taken s 0 4 f (legalByHandle f) ∧ s.heldBy (handleOf f) f.node.toNat ∧ (s.loan (slotOf f)).releaseOwed = none
        ∧ (s.loan (slotOf f)).state = .held ∧ (s.loan (slotOf f)).outstanding = 0 ∧ s.quiet 10
        ∧ s.oneAuthority ∧ Taken s 1 32 g (legalByHandle g) ∧ (s.loan (slotOf g)).issue = (handleOf g).issue
        ∧ (∀ x ∈ (s.bay (s.bayOf 10)).queue, x.handle ≠ some (handleOf g))
        ∧ s.loanInFlight (s.bayOf 10) (handleOf g) = false ∧ (s.loan 0).remaining = 0 := by
  intro l h
  rcases h with rfl | rfl | rfl
  all_goals
    repeat' apply And.intro
    all_goals first | decide | exact one_of (n := 4095) (by decide) (by decide)

/-- The loan of node 5 with a WRITE in flight. -/
def inFlight (remaining : Nat) : State :=
  flying 0 (transfer .write (some ⟨0, 3⟩) (some 10)) 5 (withLoan { held .sole with outstanding := 1, remaining := remaining })

/-- The same ends with a transfer in flight; an unknown handle; a loan that is not due. -/
theorem witness_ends_later :
    (let f := reqOn 5 1 0 3; let g := reqOn 4095 0 0 3
     Taken (inFlight 0) 0 4 f (legalByHandle f) ∧ (inFlight 0).heldBy (handleOf f) f.node.toNat
      ∧ ((inFlight 0).loan 0).state = .held ∧ ((inFlight 0).loan 0).outstanding ≠ 0 ∧ ((inFlight 0).loan 0).releaseOwed = none
      ∧ (inFlight 0).oneAuthority ∧ Taken (inFlight 0) 1 32 g (legalByHandle g)
      ∧ (inFlight 0).loanInFlight ((inFlight 0).bayOf 10) ⟨0, 3⟩ = true
      ∧ (∀ x ∈ ((inFlight 0).bay ((inFlight 0).bayOf 10)).queue, x.handle ≠ some ⟨0, 3⟩)
      ∧ ((inFlight 0).loan 0).remaining = 0)
    ∧ (let g := reqOn 4095 0 8191 0; Taken base 1 32 g (legalByHandle g) ∧ (base.loan (slotOf g)).state = .free)
    ∧ ((withLoan { held .sole with remaining := 1 }).loan 0).remaining ≠ 0 ∧ (base.loan 8191).state = .free
    ∧ ((withLoan { held .sole with state := .closing, remaining := 0 }).loan 0).state = .closing := by
  repeat' apply And.intro
  all_goals first | decide | exact one_of (n := 4095) (by decide) (by decide)

/-- The loan of node 5 with one READ queued behind its WRITE in flight on B0. -/
def busyLoan (l : LoanRec) (n : Nat) : State :=
  updBay 0 (fun y => { y with queue := [transfer .read (some ⟨0, 3⟩) (some 10)] })
    (flying 0 (transfer .write (some ⟨0, 3⟩) (some 10)) 5 (withLoan { l with outstanding := n }))

/-- Its UPGRADE entry at the head of extent 10, before others. -/
def upgradingBefore (left : List ClaimEntry) (s : State) : State :=
  withQueue (entry 5 2 (.upgrade ⟨0, 3⟩) 1 9 :: left) (updLoan 0 (fun l => { l with state := .upgrading }) s)

/-- Its UPGRADE entry, alone on extent 10. -/
def upgrading (s : State) : State := upgradingBefore [] s

/-- RELEASE of a HELD and of an UPGRADING loan, with nothing and with transfers outstanding, before nothing and before a SHARED
claim. -/
theorem witness_release_waits :
    ∀ (n : Nat) (up : Bool) (left : List ClaimEntry), n = 0 ∨ n = 2 → left = [] ∨ left = [entry 6 2 .shared 1 9] →
      let f := reqOn 5 1 0 3
      let s := if up then upgradingBefore left (busyLoan (held .shared) n) else withQueue left (busyLoan (held .sole) n)
      Taken s 0 4 f (legalByHandle f) ∧ s.heldBy (handleOf f) f.node.toNat ∧ (s.loan (slotOf f)).releaseOwed = none
        ∧ (s.xl 10).queue = (if up then [entry 5 2 (.upgrade ⟨0, 3⟩) 1 9] else []) ++ left
        ∧ (s.loan 0).state = (if up then .upgrading else .held) ∧ (entry 5 2 (.upgrade (handleOf f)) 1 9).kind = .upgrade ⟨0, 3⟩
        ∧ (s.loan 0).outstanding = n ∧ s.loans.tableWait = [] ∧ s.loader.state ≠ .draining
        ∧ (∀ r, s.extent 10 = some r → (s.bay r.bay).state ≠ .servicePending) := by
  intro n up left h g
  rcases h with rfl | rfl <;> rcases g with rfl | rfl <;> cases up
  all_goals
    refine ⟨by unfold Taken; decide, by unfold State.heldBy; decide, by decide, by decide, by decide, by decide, by decide,
      by decide, by decide, forall_found (by decide)⟩

/-- LEASE_EXPIRY of a HELD and of an UPGRADING loan at remaining 0: with a transfer in flight and one queued, with one queued
alone, before nothing and before a SOLE claim, a release reply owed and none. -/
theorem witness_expiry :
    ∀ (fly up : Bool) (left : List ClaimEntry) (q : Option Req), left = [] ∨ left = [entry 6 2 .sole 1 9] →
      q = none ∨ q = some (waiting 4 5 40) →
      let l := { held (if up then .shared else .sole) with remaining := 0, writes := 1, releaseOwed := q }
      let b := if fly then busyLoan l 2 else updBay 0 (fun y => { y with inFlight := none }) (busyLoan l 1)
      let s := if up then upgradingBefore left b else withQueue left b
      (s.loan 0).remaining = 0 ∧ (s.loan 0).issue = 3 ∧ s.loanInFlight (s.bayOf (s.loan 0).extent) ⟨0, 3⟩ = fly
        ∧ (s.xl (s.loan 0).extent).queue = (if up then [entry 5 2 (.upgrade ⟨0, 3⟩) 1 9] else []) ++ left
        ∧ (s.loan 0).state = (if up then .upgrading else .held) ∧ (s.queuedOf 0).length = 1 ∧ s.loans.tableWait = []
        ∧ s.loader.state ≠ .draining ∧ (∀ r, s.extent (s.loan 0).extent = some r → (s.bay r.bay).state ≠ .servicePending) := by
  intro fly up left q h g
  rcases h with rfl | rfl <;> rcases g with rfl | rfl <;> cases up <;> cases fly
  all_goals
    refine ⟨by decide, by decide, by decide, by decide, by decide, by decide, by decide, by decide, forall_found (by decide)⟩

/-- REVOKE LOAN of a loan with transfers queued and in flight, of one with a READ queued alone, of an UPGRADING one with and
without a transfer in flight, of a CLOSING one with more outstanding than is queued and with no more. -/
theorem witness_revoke :
    ∀ s keeps, (s = busyLoan (held .sole) 2 ∧ keeps = true)
        ∨ (s = updBay 0 (fun y => { y with inFlight := none }) (busyLoan (held .sole) 1) ∧ keeps = false)
        ∨ (s = upgrading (withLoan (held .shared)) ∧ keeps = false)
        ∨ (s = upgrading (busyLoan (held .shared) 2) ∧ keeps = true)
        ∨ (s = busyLoan { held .sole with state := .closing, cause := some .released, releaseOwed := some (waiting 4 5 40) } 2
            ∧ keeps = true)
        ∨ (s = updBay 0 (fun y => { y with inFlight := none })
              (busyLoan { held .sole with state := .closing, cause := some .released, releaseOwed := some (waiting 4 5 40) } 1)
            ∧ keeps = false) →
      let g := reqOn 4095 0 0 3; let l := s.loan (slotOf g)
      s.oneAuthority ∧ Taken s 1 32 g (legalByHandle g) ∧ l.state ≠ .free ∧ l.issue = (handleOf g).issue
        ∧ (l.state = .upgrading → (∃ c, (s.xl l.extent).queue = [c] ∧ c.kind = .upgrade (handleOf g)) ∧ s.loans.tableWait = [])
        ∧ s.keepsRevoked (slotOf g) = keeps
        ∧ (l.state ≠ .upgrading → (s.xl l.extent).queue = []) ∧ s.loans.tableWait = [] ∧ s.loader.state ≠ .draining
        ∧ (∀ r, s.extent l.extent = some r → (s.bay r.bay).state ≠ .servicePending) := by
  intro s keeps h
  rcases h with ⟨rfl, rfl⟩ | ⟨rfl, rfl⟩ | ⟨rfl, rfl⟩ | ⟨rfl, rfl⟩ | ⟨rfl, rfl⟩ | ⟨rfl, rfl⟩
  all_goals
    refine ⟨⟨by decide, one_of (n := 4095) (by decide) (by decide)⟩, by unfold Taken; decide, by decide, by decide, ?_,
      by decide, by decide, by decide, by decide, forall_found (by decide)⟩
  all_goals first
    | exact fun h => absurd h (by decide)
    | exact fun _ => ⟨⟨entry 5 2 (.upgrade ⟨0, 3⟩) 1 9, by decide, by decide⟩, by decide⟩

/-- The holder's port, with one watch on the extent and the last notice count of the REVOKED notice's clause. -/
theorem witness_revoked_notice :
    (let s := setPort 0 { base.port 0 with notices := 46 } (setWatches [(watchKey 10 6, ⟨6, 10, 41, .armed⟩)] (withLoan (held .sole)))
     let g := reqOn 4095 0 0 3; let l := s.loan (slotOf g)
     l.holder ≠ 0 ∧ s.nodeAfter 1 g l.holder = some { node5 with held := 1 } ∧ node5.learned = some 0 ∧ (s.port 0).up = true
      ∧ (s.port 0).notices + (s.watches.filter (fun x => decide (x.2.extent = l.extent))).length + 16 < 64) := by decide

/-- LOAN_END: each cause, with an owed release and without one; then an outstanding transfer, and a live loan. -/
theorem witness_loan_end :
    (∀ (c : EndCause) (q : Option Req), c = .released ∨ c = .expired ∨ c = .revoked .reset →
        q = none ∨ q = some (waiting 4 5 40) →
      let s := withLoan { held .sole with state := .closing, cause := some c, releaseOwed := q }
      (s.loan 0).state = .closing ∧ (s.loan 0).outstanding = 0 ∧ (s.loan 0).cause = some c ∧ s.quiet (s.loan 0).extent)
    ∧ (dying.loan 0).outstanding ≠ 0 ∧ ((withLoan (held .sole)).loan 0).state ≠ .closing ∧ (base.loan 8191).state ≠ .closing := by
  refine ⟨?_, by decide⟩
  intro c q hc hq
  rcases hc with rfl | rfl | rfl <;> rcases hq with rfl | rfl
  all_goals
    repeat' apply And.intro
    all_goals decide

/-- A CLOSING loan of node 5 with nothing outstanding, released. -/
def ending : State := withLoan { held .sole with state := .closing, cause := some .released }

/-- Ends of a loan on which something waits: a SHARED and a SOLE head; an UPGRADE head with a SOLE entry behind it; another
extent on the table-wait list; the entry test, the drain test, and both; the list empty and not. -/
theorem witness_loan_end_waits :
    (∀ s : State, s = withQueue [entry 6 2 .shared 1 9] ending ∨ s = withQueue [entry 6 2 .sole 1 9, entry 7 2 .sole 1 9] ending →
      (s.loan 0).state = .closing ∧ (s.loan 0).outstanding = 0 ∧ (s.loan 0).cause = some .released
        ∧ (∀ r, s.extent 10 = some r → (s.bay r.bay).state ≠ .servicePending) ∧ s.loader.state ≠ .draining
        ∧ s.loans.tableWait = [] ∧ ∃ c rest, (s.xl 10).queue = c :: rest ∧ (c.kind = .shared ∨ c.kind = .sole))
    ∧ (let s := withQueue [entry 6 2 (.upgrade ⟨1, 4⟩) 1 9, entry 7 2 .sole 1 9]
          (setLoan 1 ⟨4, .upgrading, 6, 10, .shared, 1, 7, 0, false, 0, none, none⟩
            (withLoan { held .shared with state := .closing, cause := some .released }))
       s.tables ∧ (s.xl 10).queue = entry 6 2 (.upgrade ⟨1, 4⟩) 1 9 :: [entry 7 2 .sole 1 9] ∧ s.loans.tableWait = []
        ∧ ∀ d ∈ [entry 7 2 .sole 1 9], d.kind = .shared ∨ d.kind = .sole)
    ∧ (let s := setTableWait [11] (updXl 11 (fun x => { x with queue := [entry 6 2 .shared 1 9] }) ending)
       (s.loan 0).state = .closing ∧ (s.xl 10).queue = [] ∧ s.loans.tableWait = [11]
        ∧ (s.xl 11).queue = [entry 6 2 .shared 1 9] ∧ s.lowestFree = some 1)
    ∧ (∀ d p : Bool, let s := (if d then draining none .force else id) (if p then
          updBay 0 (fun y => { y with state := .servicePending }) ending else ending)
       (s.loan 0).state = .closing ∧ (s.xl 10).queue = [] ∧ s.loans.tableWait = [] ∧ s.extent 10 = some ext10
        ∧ ((s.bay 0).state = .servicePending ↔ p = true) ∧ (s.loader.state = .draining ↔ d = true)
        ∧ (d = true → 10 ∈ s.loader.affected)) := by
  refine ⟨?_, ?_, by decide, by decide⟩
  · intro s h
    rcases h with rfl | rfl
    all_goals
      refine ⟨by decide, by decide, by decide, forall_found (by decide), by decide, by decide, _, _, rfl, by decide⟩
  · unfold State.tables
    decide

/-! ### Claim queues -/

/-- CLAIM_WAIT_TIMEOUT: a wait of 0 alone; two of them, one behind the head, with a SHARED entry left; one behind an UPGRADE
entry that stays; the UPGRADE entry's own, with a SOLE entry left; no wait of 0. -/
theorem witness_claim_wait :
    (let s := withQueue [entry 6 2 .sole 1 0] base
     (s.xl 10).queue.filter (fun c => decide (c.wait = 0)) = entry 6 2 .sole 1 0 :: []
      ∧ [] = (s.xl 10).queue.filter (fun c => decide (c.wait ≠ 0)))
    ∧ (let s := withQueue [entry 6 2 .shared 1 0, entry 7 2 .shared 1 1, entry 8 2 .sole 1 0] (withLoan (held .sole))
       (s.xl 10).queue.filter (fun c => decide (c.wait = 0)) = entry 6 2 .shared 1 0 :: [entry 8 2 .sole 1 0]
        ∧ [entry 7 2 .shared 1 1] = (s.xl 10).queue.filter (fun c => decide (c.wait ≠ 0)))
    ∧ (let s := upgradingBefore [entry 6 2 .shared 1 0, entry 7 2 .sole 1 1] (withLoan (held .shared))
       s.tables ∧ (s.xl 10).queue.filter (fun c => decide (c.wait = 0)) = entry 6 2 .shared 1 0 :: []
        ∧ entry 5 2 (.upgrade ⟨0, 3⟩) 1 9 :: [entry 7 2 .sole 1 1] = (s.xl 10).queue.filter (fun c => decide (c.wait ≠ 0))
        ∧ ∀ d ∈ [entry 7 2 .sole 1 1], d.kind = .shared ∨ d.kind = .sole)
    ∧ (let s := withQueue [entry 5 2 (.upgrade ⟨0, 3⟩) 1 0, entry 6 2 .sole 1 9] (withLoan { held .shared with state := .upgrading })
       (s.xl 10).queue.filter (fun c => decide (c.wait = 0)) = entry 5 2 (.upgrade ⟨0, 3⟩) 1 0 :: []
        ∧ [entry 6 2 .sole 1 9] = (s.xl 10).queue.filter (fun c => decide (c.wait ≠ 0)) ∧ (s.loan 0).state = .upgrading)
    ∧ (∀ c ∈ (running.xl 10).queue, c.wait ≠ 0) ∧ (base.xl 4095).queue = [] := by
  unfold State.tables
  decide

/-- GRANT_FROM_QUEUE: SHARED with a SOLE entry behind it, SOLE alone and with a SHARED entry behind it, on an IDLE extent; SHARED on a SHARED one; an UPGRADE;
an empty queue. -/
theorem witness_grant :
    (let s := withQueue [entry 6 2 .shared 0 9, entry 7 2 .sole 1 9] base
     (s.xl 10).queue = entry 6 2 .shared 0 9 :: [entry 7 2 .sole 1 9] ∧ (entry 6 2 .shared 0 9).kind = Mode.shared.entryKind
      ∧ (s.xl 10).drainMark = false ∧ s.summary 10 ≠ .sole ∧ s.lowestFree = some 0 ∧ s.extent 10 = some ext10
      ∧ s.node 6 = some node6 ∧ (entry 7 2 .sole 1 9).kind = .sole)
    ∧ (let s := withQueue [entry 6 2 .sole 3 9] base
       (s.xl 10).queue = [entry 6 2 .sole 3 9] ∧ (entry 6 2 .sole 3 9).kind = Mode.sole.entryKind ∧ s.summary 10 = .idle
        ∧ s.lowestFree = some 0)
    ∧ (let s := withQueue [entry 6 2 .sole 3 9, entry 7 2 .shared 1 9] base
       (s.xl 10).queue = entry 6 2 .sole 3 9 :: [entry 7 2 .shared 1 9] ∧ (s.xl 10).drainMark = false ∧ s.summary 10 = .idle
        ∧ s.lowestFree = some 0 ∧ (entry 6 2 .sole 3 9).req.code = 1)
    ∧ (let s := withQueue [entry 6 2 .shared 3 9] (withLoan (held .shared)); s.summary 10 = .shared ∧ s.lowestFree = some 1)
    ∧ (let s := withQueue [entry 5 2 (.upgrade ⟨0, 3⟩) 1 9] base
       (s.xl 10).queue = entry 5 2 (.upgrade ⟨0, 3⟩) 1 9 :: [] ∧ (entry 5 2 (.upgrade ⟨0, 3⟩) 1 9).kind = .upgrade ⟨0, 3⟩)
    ∧ (base.xl 4095).queue = [] := by
  repeat' apply And.intro
  all_goals decide

/-- CONVERSION: the UPGRADING loan alone on its extent, and with another. -/
theorem witness_conversion :
    (∀ s : State, s = withLoan { held .shared with state := .upgrading }
        ∨ s = setLoan 8191 { held .shared with holder := 6 } (withLoan { held .shared with state := .upgrading }) →
      let t := withQueue [entry 5 2 (.upgrade ⟨0, 3⟩) 1 9] s
      t.tables ∧ (t.xl 10).queue = [entry 5 2 (.upgrade ⟨0, 3⟩) 1 9] ∧ (t.xl 10).drainMark = false)
    ∧ ((withQueue [entry 5 2 (.upgrade ⟨0, 3⟩) 1 9] (withLoan { held .shared with state := .upgrading })).loansOn 10
        = [(0, { held .shared with state := .upgrading })] ∧ (held .shared).issue = 3)
    ∧ ((withQueue [entry 5 2 (.upgrade ⟨0, 3⟩) 1 9]
        (setLoan 8191 { held .shared with holder := 6 } (withLoan { held .shared with state := .upgrading }))).loansOn 10).length = 2
    ∧ ((base.xl 11).queue = [] ∧ (withQueue [entry 6 2 .shared 1 9] base).xl 10 = ⟨[entry 6 2 .shared 1 9], false, 0⟩) := by
  refine ⟨?_, by decide, by decide, by decide⟩
  intro s h
  rcases h with rfl | rfl
  all_goals
    unfold State.tables
    decide

/-- A batch of SHARED entries on an extent with and without a SHARED loan; one of two stopped by a SOLE entry. -/
theorem witness_batch :
    (let s := withQueue [entry 6 2 .shared 0 9, entry 7 2 .shared 1 9, entry 8 2 .sole 1 9, entry 9 2 .shared 1 9] base
     (s.xl 10).queue = [entry 6 2 .shared 0 9, entry 7 2 .shared 1 9] ++ [entry 8 2 .sole 1 9, entry 9 2 .shared 1 9]
      ∧ (∀ c ∈ [entry 6 2 .shared 0 9, entry 7 2 .shared 1 9], c.kind = .shared) ∧ (entry 8 2 .sole 1 9).kind = .sole
      ∧ (s.xl 10).drainMark = false ∧ s.summary 10 ≠ .sole)
    ∧ (let s := withQueue [entry 6 2 .shared 0 9, entry 7 2 .shared 1 9] (withLoan (held .shared))
     (s.xl 10).queue ≠ [] ∧ (∀ c ∈ (s.xl 10).queue, c.kind = .shared) ∧ (s.xl 10).drainMark = false ∧ s.summary 10 ≠ .sole)
    ∧ (let s := withQueue [entry 6 2 .shared 0 9] base; (s.xl 10).queue ≠ [] ∧ s.summary 10 = .idle) := by decide

/-- The lowest FREE slot where slots from one number on are FREE. -/
theorem slotsTaken_lowest (k fuel n : Nat) (h : n ≤ k) (g : k < n + fuel) : freeSlotFrom (slotsTaken k) fuel n = some k := by
  induction fuel generalizing n with
  | zero => omega
  | succ m ih =>
    unfold freeSlotFrom
    by_cases e : n = k
    · subst e
      have : (slotsTaken n).loan n = LoanRec.free 0 := by
        unfold State.loan Tab.val
        have : (slotsTaken n).loans.table.look n = none := by
          cases c : (slotsTaken n).loans.table.look n with
          | none => rfl
          | some v =>
            obtain ⟨m, hm, e⟩ := List.mem_map.1 (Tab.mem_of_look c)
            have := List.mem_range.1 hm
            simp only [Prod.mk.injEq] at e
            omega
        rw [this]
        rfl
      rw [this, if_pos (by decide)]
    · rw [slotsTaken_loan k n (by omega), if_neg (by decide), ih (n + 1) (by omega) (by omega)]

/-- Two SHARED entries wait on extent 10, and so many slots are taken that none, and that one, is FREE. -/
theorem witness_batch_slots (k : Nat) (h : k = 8192 ∨ k = 8191) :
    let s := withQueue [entry 6 2 .shared 0 9, entry 7 2 .shared 1 9] (slotsTaken k)
    (s.xl 10).queue ≠ [] ∧ (∀ c ∈ (s.xl 10).queue, c.kind = .shared) ∧ (s.xl 10).drainMark = false ∧ s.summary 10 ≠ .sole
      ∧ s.lowestFree = (if k = 8192 then none else some 8191) := by
  refine ⟨?_, ?_, ?_, ?_, ?_⟩
  · exact (by decide : ((withQueue [entry 6 2 .shared 0 9, entry 7 2 .shared 1 9] base).xl 10).queue ≠ [])
  · exact (by decide : ∀ c ∈ ((withQueue [entry 6 2 .shared 0 9, entry 7 2 .shared 1 9] base).xl 10).queue, c.kind = .shared)
  · exact (by decide : ((withQueue [entry 6 2 .shared 0 9, entry 7 2 .shared 1 9] base).xl 10).drainMark = false)
  · have : State.summary (withQueue [entry 6 2 .shared 0 9, entry 7 2 .shared 1 9] (slotsTaken k)) 10 = .idle := by
      change State.summary (slotsTaken k) 10 = _
      unfold State.summary
      rw [slotsTaken_loansOn]
    rw [this]
    decide
  · have same : ∀ fuel n, freeSlotFrom (withQueue [entry 6 2 .shared 0 9, entry 7 2 .shared 1 9] (slotsTaken k)) fuel n
        = freeSlotFrom (slotsTaken k) fuel n := by
      intro fuel
      induction fuel with
      | zero => exact fun _ => rfl
      | succ m ih =>
        intro n
        unfold freeSlotFrom
        rw [ih]
        rfl
    refine (same 8192 0).trans ?_
    rcases h with rfl | rfl
    · exact slotsTaken_free 8192 8192 0 (by omega)
    · exact slotsTaken_lowest 8191 8192 0 (by omega) (by omega)

/-! ### Transfers -/

/-- The queue of B0 as long as given. -/
def crowded (n : Nat) (s : State) : State :=
  updBay 0 (fun y => { y with queue := List.replicate n (transfer .openRead none (some 11)), inFlight := some (fly (transfer .openRead none (some 11)) 0 false) }) s

/-- READ and WRITE up to the last block, with the queue at 0 and at 15; a WRITE of one block, past the fences. -/
theorem witness_transfers :
    (∀ n, n = 0 ∨ n = 15 → let f := { reqOn 5 1 0 3 with offset := 14, argB := 2 }; let s := crowded n (withLoan (held .shared))
      s.heldBy (handleOf f) f.node.toNat ∧ s.loan (slotOf f) = held .shared ∧ s.extent 10 = some ext10
        ∧ offsetOf f + argBOf f ≤ 2 ^ ext10.k ∧ (s.bay ext10.bay).state = .ready ∧ (s.bay ext10.bay).queue.length < 16
        ∧ Taken s 0 5 f (legalRead f) ∧ s.fenceAnswer .read ext10.bay (ext10.base + offsetOf f) (argBOf f) = .pass)
    ∧ (let f := oneBlock { reqOn 5 1 0 3 with offset := 15 }
       let s := updBay 0 (fun y => { y with state := .servicePending }) (withLoan (held .sole))
       s.heldBy (handleOf f) f.node.toNat ∧ s.loan (slotOf f) = held .sole ∧ s.extent 10 = some ext10
        ∧ offsetOf f + argBOf f ≤ 2 ^ ext10.k ∧ (s.bay ext10.bay).state = .servicePending
        ∧ (s.bay ext10.bay).queue.length < 16 ∧ Taken s 0 6 f (legalWrite f) ∧ (held .sole).mode = .sole
        ∧ s.fenceAnswer .write ext10.bay (ext10.base + offsetOf f) (argBOf f) = .pass)
    ∧ (∀ n, n = 0 ∨ n = 15 → let f := { req 6 1 with extent := 11, offset := 14, argB := 2 }; let s := crowded n base
       Taken s 1 7 f (legalOpenRead f) ∧ s.extent (extentOf f) = some ext11 ∧ s.effective ext11 = .lent .library
        ∧ (s.xl (extentOf f)).drainMark = false ∧ offsetOf f + argBOf f ≤ 2 ^ ext11.k
        ∧ s.fenceAnswer .openRead ext11.bay (ext11.base + offsetOf f) (argBOf f) = .pass
        ∧ (s.bay ext11.bay).queue.length < 16) := by
  refine ⟨?_, ?_, ?_⟩
  · intro n h
    rcases h with rfl | rfl
    all_goals
      repeat' apply And.intro
      all_goals decide
  · repeat' apply And.intro
    all_goals decide +kernel
  · intro n h
    rcases h with rfl | rfl
    all_goals
      repeat' apply And.intro
      all_goals decide

/-- An OPEN READ of an absent extent, at an ABSENT bay, of an extent without open reads, under the drain mark, one block past
the extent, and of its last block with 16 queued. -/
theorem witness_open_read_refused :
    (let f := { req 6 1 with extent := 4095, argB := 1 }; Taken base 1 7 f (legalOpenRead f) ∧ base.extent (extentOf f) = none)
    ∧ (let f := { req 6 1 with extent := 12, argB := 1 }
       Taken base 1 7 f (legalOpenRead f) ∧ base.extent (extentOf f) = some ext12 ∧ base.effective ext12 = .closed .bayDown)
    ∧ (let f := { req 6 1 with extent := 10, argB := 1 }
       Taken base 1 7 f (legalOpenRead f) ∧ base.extent (extentOf f) = some ext10 ∧ base.effective ext10 = .lent .output)
    ∧ (let f := { req 6 1 with extent := 11, offset := 15, argB := 2 }
       ∀ s, s = base ∨ s = setDrainMark 11 base → Taken s 1 7 f (legalOpenRead f) ∧ s.extent (extentOf f) = some ext11
        ∧ s.effective ext11 = .lent .library ∧ 2 ^ ext11.k < offsetOf f + argBOf f)
    ∧ ((setDrainMark 11 base).xl 11).drainMark = true ∧ (base.xl 11).drainMark = false
    ∧ (let f := { req 6 1 with extent := 11, offset := 15, argB := 1 }; let s := crowded 16 base
       Taken s 1 7 f (legalOpenRead f) ∧ s.extent (extentOf f) = some ext11 ∧ s.effective ext11 = .lent .library
        ∧ (s.xl (extentOf f)).drainMark = false ∧ offsetOf f + argBOf f ≤ 2 ^ ext11.k
        ∧ s.fenceAnswer .openRead ext11.bay (ext11.base + offsetOf f) (argBOf f) = .pass
        ∧ 16 ≤ (s.bay ext11.bay).queue.length) := by
  unfold Taken
  refine ⟨by decide, by decide, by decide, ?_, by decide, by decide, by decide⟩
  intro f s h
  rcases h with rfl | rfl <;> decide

/-- A READ and a WRITE one block past the extent, and within it on a CLOSING and on a SHARED loan. -/
theorem witness_transfer_range :
    (let f := { reqOn 5 1 0 3 with offset := 15, argB := 2 }; let s := withLoan (held .sole)
     s.heldBy (handleOf f) f.node.toNat ∧ Taken s 0 5 f (legalRead f) ∧ s.extent 10 = some ext10 ∧ 2 ^ ext10.k < offsetOf f + argBOf f)
    ∧ (let f := oneBlock { reqOn 5 1 0 3 with offset := 16 }; let s := withLoan (held .sole)
       s.heldBy (handleOf f) f.node.toNat ∧ Taken s 0 6 f (legalWrite f) ∧ 2 ^ ext10.k < offsetOf f + argBOf f)
    ∧ (∀ l : LoanRec, l = { held .sole with state := .closing } ∨ l = held .shared →
       let f := oneBlock { reqOn 5 1 0 3 with offset := 15 }; let s := withLoan l
       s.heldBy (handleOf f) f.node.toNat ∧ Taken s 0 6 f (legalWrite f) ∧ s.loan (slotOf f) = l
        ∧ offsetOf f + argBOf f ≤ 2 ^ ext10.k ∧ s.fenceAnswer .write ext10.bay (ext10.base + offsetOf f) (argBOf f) = .pass)
    ∧ (let f := { reqOn 5 1 0 3 with offset := 15, argB := 1 }; let s := withLoan { held .sole with state := .closing }
       s.heldBy (handleOf f) f.node.toNat ∧ Taken s 0 5 f (legalRead f)
        ∧ s.fenceAnswer .read ext10.bay (ext10.base + offsetOf f) (argBOf f) = .pass) := by
  refine ⟨?_, ?_, ?_, ?_⟩
  · unfold Taken State.heldBy; decide
  · unfold Taken State.heldBy; decide +kernel
  · intro l h
    rcases h with rfl | rfl
    all_goals
      unfold Taken State.heldBy
      decide +kernel
  · unfold Taken State.heldBy; decide

/-- READ and WRITE on a live SOLE loan at a bay in every other state, and with 16 queued. -/
theorem witness_transfer_bay :
    (∀ st : BayState, st = .absent ∨ st = .failed ∨ st = .service ∨ st = .servicePending ∨ st = .ready →
      let f := { reqOn 5 1 0 3 with argB := 1 }; let g := oneBlock f
      let s := crowded 16 (updBay 0 (fun y => { y with state := st }) (withLoan (held .sole)))
      s.heldBy (handleOf f) f.node.toNat ∧ Taken s 0 5 f (legalRead f) ∧ Taken s 0 6 g (legalWrite g)
        ∧ s.extent 10 = some ext10 ∧ (s.bay ext10.bay).state = st ∧ 16 ≤ (s.bay ext10.bay).queue.length
        ∧ s.fenceAnswer .read ext10.bay (ext10.base + offsetOf f) (argBOf f) = .pass
        ∧ s.fenceAnswer .write ext10.bay (ext10.base + offsetOf g) (argBOf g) = .pass) := by
  intro st h
  rcases h with rfl | rfl | rfl | rfl | rfl
  all_goals
    unfold Taken State.heldBy
    decide +kernel

/-! ### Watches -/

/-- The Watch List with as many records as given, none of node 6 on extent 10. -/
def watchers (n : Nat) : State := setWatches ((List.range n).map (fun k => (k, ⟨k, 0, 0, .armed⟩))) base

/-- WATCH: an absent extent; the list at 1023 and at 1024; a record of its own; a watch without EXPECT, one with the current
generation and one with another, with notice places left and with none. UNWATCH with and without a record. -/
theorem witness_watch :
    (let f := { req 6 1 with extent := 4095 }; Taken base 1 8 f (legalWatch f) ∧ base.extent (extentOf f) = none)
    ∧ (let f := { req 6 1 with extent := 10 }
       Taken (watchers 1024) 1 8 f (legalWatch f) ∧ (watchers 1024).extent (extentOf f) = some ext10
        ∧ (watchers 1024).watches.look (watchKey (extentOf f) f.node.toNat) = none ∧ 1024 ≤ (watchers 1024).watches.length
        ∧ (watchers 1023).watches.length < 1024 ∧ f.argA.toNat ≠ 1)
    ∧ (let f := { req 6 1 with extent := 10, argA := 1, generation := 41 }
       Taken base 1 8 f (legalWatch f) ∧ f.generation = (base.pair (extentOf f)).gen ∧ base.watches.length < 1024)
    ∧ (∀ n, n = 63 ∨ n = 64 → let f := { req 6 1 with extent := 10, argA := 1, generation := 40 }
       let s := setPort 1 { base.port 1 with notices := n } (watched .fired)
       Taken s 1 8 f (legalWatch f) ∧ s.extent (extentOf f) = some ext10 ∧ f.argA.toNat = 1
        ∧ f.generation ≠ (s.pair (extentOf f)).gen ∧ (s.port 1).notices = n
        ∧ s.watches.look (watchKey (extentOf f) f.node.toNat) ≠ none)
    ∧ (let f := { req 6 1 with extent := 10 }
       Taken base 1 9 f (legalByExtent f) ∧ base.watches.look (watchKey (extentOf f) f.node.toNat) = none
        ∧ Taken (watched .fired) 1 9 f (legalByExtent f)
        ∧ (watched .fired).watches.look (watchKey (extentOf f) f.node.toNat) ≠ none) := by
  refine ⟨?_, ?_, ?_, ?_, ?_⟩
  · unfold Taken; decide
  · unfold Taken; decide +kernel
  · unfold Taken; decide
  · intro n h
    rcases h with rfl | rfl
    all_goals
      unfold Taken
      decide
  · unfold Taken; decide

/-! ### Fences -/

/-- A fence and a range that meet in one block, at each end, and ranges just beside it. -/
theorem witness_fence_ranges :
    (let v : Fence := ⟨0, 16, 4, .write, .hold, false, true, false⟩
     v.matches .write 0 15 2 = true ∧ v.matches .write 0 31 1 = true ∧ v.matches .write 0 15 1 = false
      ∧ v.matches .write 0 32 1 = false ∧ v.matches .read 0 16 1 = false ∧ v.matches .write 1 16 1 = false) := by decide

/-- Every fence holds, and the held list has the places given. -/
def holding (places : List Nat) : State :=
  setHeld (places.map (fun k => (k, ⟨waiting 1 6 3, .claim 11 .shared 1 30, 60, 1⟩)))
    (setFences (Vector.replicate 8 ⟨0, 0, 4, .any, .hold, true, false, false⟩) base)

/-- A claim stopped by F0 alone, by F7 alone, by all; refused by an enabled REFUSE; held at H15 and with no place free. -/
theorem witness_fenced_claim :
    (let f := claimBy 6 10 4 0
     Taken fenced 1 1 f (legalClaim f) ∧ fenced.extent (extentOf f) = some ext10
      ∧ (fenced.fence 0).matches (claimMode f).fencedKind ext10.bay ext10.base (2 ^ ext10.k) = true
      ∧ (fenced.fence 0).enabled = true
      ∧ (∀ i, i < 8 → (fenced.fence i).matches (claimMode f).fencedKind ext10.bay ext10.base (2 ^ ext10.k) = true →
          (fenced.fence i).enabled = true → (fenced.fence i).action = .hold)
      ∧ fenced.fences.held.look 0 = none)
    ∧ (let f := claimBy 6 10 0 0
       let s := setFences ((Vector.replicate 8 Fence.reset).set 7 ⟨0, 15, 0, .any, .refuse, true, true, false⟩) base
       Taken s 1 1 f (legalClaim f) ∧ (s.fence 7).matches (claimMode f).fencedKind ext10.bay ext10.base (2 ^ ext10.k) = true
        ∧ (s.fence 7).enabled = true ∧ (s.fence 7).action = .refuse
        ∧ ∀ j, j < 7 → (s.fence j).matches (claimMode f).fencedKind ext10.bay ext10.base (2 ^ ext10.k) = false
            ∨ (s.fence j).enabled = false)
    ∧ (let f := claimBy 6 10 0 0; let s := holding (List.range 15)
       Taken s 1 1 f (legalClaim f) ∧ s.fences.held.look 15 = none ∧ (∀ j, j < 15 → s.fences.held.look j ≠ none)
        ∧ ∀ i, i < 8 → (s.fence i).enabled = true ∧ (s.fence i).action = .hold)
    ∧ (let f := claimBy 6 10 0 0; let s := holding (List.range 16)
       Taken s 1 1 f (legalClaim f) ∧ ∀ i, i < 16 → s.fences.held.look i ≠ none) := by
  unfold Taken
  repeat' apply And.intro
  all_goals decide

/-- F7 alone, on the last block of extent 10 and on that of extent 11, with the action given. -/
def fencedAt (block : Nat) (a : FenceAction) (s : State) : State :=
  setFences ((Vector.replicate 8 Fence.reset).set 7 ⟨0, block, 0, .any, a, true, false, false⟩) s

/-- A READ, a WRITE and an OPEN READ of the last block meet F7, with HOLD and with REFUSE; the loan is CLOSING, or SHARED. -/
theorem witness_fenced_transfers :
    (∀ a l, (a = FenceAction.hold ∨ a = .refuse) → (l = { held .sole with state := .closing } ∨ l = held .shared) →
      let f := { reqOn 5 1 0 3 with offset := 15, argB := 1 }; let g := oneBlock f
      let s := fencedAt 15 a (withLoan l)
      s.heldBy (handleOf f) f.node.toNat ∧ s.extent (s.loan (slotOf f)).extent = some ext10 ∧ offsetOf f + argBOf f ≤ 2 ^ ext10.k
        ∧ Taken s 0 5 f (legalRead f) ∧ Taken s 0 6 g (legalWrite g)
        ∧ (s.fence 7).matches .read ext10.bay (ext10.base + offsetOf f) (argBOf f) = true
        ∧ (s.fence 7).matches .write ext10.bay (ext10.base + offsetOf g) (argBOf g) = true ∧ (s.fence 7).enabled = true
        ∧ (s.fence 7).action = a)
    ∧ (∀ a, (a = FenceAction.hold ∨ a = .refuse) → let f := { req 6 1 with extent := 11, offset := 15, argB := 1 }
      let s := fencedAt 31 a base
      Taken s 1 7 f (legalOpenRead f) ∧ s.extent (extentOf f) = some ext11 ∧ s.effective ext11 = .lent .library
        ∧ (s.xl (extentOf f)).drainMark = false ∧ offsetOf f + argBOf f ≤ 2 ^ ext11.k
        ∧ (s.fence 7).matches .openRead ext11.bay (ext11.base + offsetOf f) (argBOf f) = true ∧ (s.fence 7).enabled = true
        ∧ (s.fence 7).action = a ∧ s.fences.held.look 0 = none) := by
  refine ⟨?_, ?_⟩
  · intro a l ha hl
    rcases ha with rfl | rfl <;> rcases hl with rfl | rfl
    all_goals
      unfold Taken State.heldBy
      decide +kernel
  · intro a ha
    rcases ha with rfl | rfl
    all_goals
      unfold Taken
      decide

/-- A fence item: the fence's fields from its bay on. -/
def fenceItemOf (b k : Nat) (first : List Byte) : Frame :=
  { auth with argA := 7, body := [9, BitVec.ofNat 8 b] ++ first ++ [BitVec.ofNat 8 k, 2, 1, 1, 1, 0, 0] }

/-- SET FENCE at the limits and beyond each; CLEAR FENCE HITS of all. -/
theorem witness_set_fence :
    base.oneAuthority
    ∧ (let f := fenceItemOf 23 26 [15, 252, 0, 0, 0]; let v := fenceOf f false
       Taken base 1 47 f (legalSetFence f) ∧ v.bay ≤ 23 ∧ v.k ≤ 26 ∧ v.base % 2 ^ v.k = 0 ∧ v.base + 2 ^ v.k - 1 ≤ 2 ^ 36 - 1)
    ∧ (let f := fenceItemOf 24 0 [0, 0, 0, 0, 0]; Taken base 1 47 f (legalSetFence f) ∧ 23 < (fenceOf f false).bay)
    ∧ (let f := fenceItemOf 0 27 [0, 0, 0, 0, 0]; Taken base 1 47 f (legalSetFence f) ∧ 26 < (fenceOf f false).k)
    ∧ (let f := fenceItemOf 0 1 [0, 0, 0, 0, 1]
       Taken base 1 47 f (legalSetFence f) ∧ (fenceOf f false).base % 2 ^ (fenceOf f false).k ≠ 0)
    ∧ (let f := fenceItemOf 0 0 [16, 0, 0, 0, 0]
       Taken base 1 47 f (legalSetFence f) ∧ 2 ^ 36 - 1 < (fenceOf f false).base + 2 ^ (fenceOf f false).k - 1)
    ∧ (let f := { auth with argA := 255 }; Taken base 1 48 f (legalPlain f)) := by
  repeat' apply And.intro
  all_goals first | decide | exact base_one

/-- The claim held in H0, and in H15. -/
theorem witness_held_ends :
    (heldClaim 10 0).oneAuthority
    ∧ (let f := { auth with argB := 40, offset := 5 }
       Taken (heldClaim 10 0) 1 51 f (legalHeld f) ∧ Taken (heldClaim 10 0) 1 52 f (legalHeld f)
        ∧ (heldClaim 10 0).fences.held.look f.argA.toNat = some ⟨waiting 1 5 40, .claim 10 .sole 1 30, 0, 1⟩)
    ∧ (let f := { auth with argB := 63, offset := 4095 }
       Taken (heldClaim 10 1) 1 51 f (legalHeld f) ∧ Taken (heldClaim 10 1) 1 52 f (legalHeld f)
        ∧ (waiting 1 5 40).node ≠ f.offset.toNat ∧ (waiting 1 5 40).tag ≠ f.argB.toNat)
    ∧ (let f := { auth with argA := 15, argB := 40, offset := 5 }
       Taken (heldClaim 10 1) 1 51 f (legalHeld f) ∧ (heldClaim 10 1).fences.held.look f.argA.toNat = none)
    ∧ (heldClaim 10 1).fences.held.look 0 = some ⟨waiting 1 5 40, .claim 10 .sole 1 30, 1, 1⟩ := by
  repeat' apply And.intro
  all_goals first | decide | exact one_of (n := 4095) (by decide) (by decide)

/-- RELEASE HELD of a claim whose extent has gone and of an OPEN READ up to the last block, with 15 queued. -/
theorem witness_release_held :
    (let f := { auth with argB := 40, offset := 5 }; let s := heldClaim 4095 1
     s.oneAuthority ∧ Taken s 1 51 f (legalHeld f)
      ∧ s.fences.held.look 0 = some ⟨waiting 1 5 40, .claim 4095 .sole 1 30, 1, 1⟩ ∧ s.extent 4095 = none)
    ∧ (let f := { auth with argB := 40, offset := 5 }
       let s := setHeld [(0, ⟨waiting 7 5 40, .openRead 11 14 2, 1, 1⟩)] (crowded 15 base)
       s.oneAuthority ∧ Taken s 1 51 f (legalHeld f) ∧ s.fences.held.look 0 = some ⟨waiting 7 5 40, .openRead 11 14 2, 1, 1⟩
        ∧ s.extent 11 = some ext11 ∧ 14 + 2 ≤ 2 ^ ext11.k ∧ s.loader.state ≠ .draining ∧ (s.bay ext11.bay).state = .ready
        ∧ (s.bay ext11.bay).queue.length < 16) := by
  repeat' apply And.intro
  all_goals first | decide | exact one_of (n := 4095) (by decide) (by decide)

/-- RELEASE HELD of a request of node 6 held in H0. -/
def heldBy6 (args : HeldArgs) (s : State) : State := setHeld [(0, ⟨waiting 1 6 40, args, 1, 1⟩)] s

/-- It is taken, and names the entry. -/
theorem heldBy6_taken (args : HeldArgs) :
    let f := { auth with argB := 40, offset := 6 }
    (heldBy6 args base).fences.held.look f.argA.toNat = some ⟨waiting 1 6 40, args, 1, 1⟩
      ∧ (waiting 1 6 40).node = f.offset.toNat ∧ (waiting 1 6 40).tag = f.argB.toNat := by
  exact ⟨rfl, rfl, rfl⟩

/-- A held claim whose bay has gone, whose mode the policy or the node does not allow, that finds the drain mark, an entry of
its sender's, or its quota used up; one that is granted, and ones that wait behind an entry, a SOLE loan, and before a SOLE
grant. -/
theorem witness_released_claim :
    (∀ s : State, s = base ∨ s = setDrainMark 10 base ∨ s = withQueue [entry 6 2 .sole 1 9] base ∨ s = full6
        ∨ s = withQueue [entry 5 2 .sole 1 9] base ∨ s = withLoan (held .sole) ∨ s = withLoan (held .shared) →
      let f := { auth with argB := 40, offset := 6 }; let t := heldBy6 (.claim 10 .sole 1 30) s
      t.oneAuthority ∧ Taken t 1 51 f (legalHeld f) ∧ t.extent 10 = some ext10 ∧ t.effective ext10 = .lent .output
        ∧ (t.node 6).map (·.write) = some true ∧ Policy.output.allows .sole = true ∧ t.lowestFree.isSome = true
        ∧ (∀ x ∈ t.loansOn 10, x.2.holder ≠ 6) ∧ t.poolUsed < 1024)
    ∧ base.effective ext12 = .closed .bayDown ∧ Policy.library.allows .sole = false ∧ base.effective ext11 = .lent .library
    ∧ (node7.write = false ∧ base.node 7 = some node7) ∧ ((setDrainMark 10 base).xl 10).drainMark = true
    ∧ (∃ c ∈ ((withQueue [entry 6 2 .sole 1 9] base).xl 10).queue, c.req.node = 6)
    ∧ (full6.node 6 = some { node6 with held := 63, waiting := 1 } ∧ node6.quota ≤ 63 + 1)
    ∧ ((base.xl 10).queue = [] ∧ base.summary 10 = .idle ∧ base.lowestFree = some 0)
    ∧ ((withQueue [entry 5 2 .sole 1 9] base).xl 10).queue ≠ []
    ∧ (withLoan (held .sole)).summary 10 = .sole ∧ (withLoan (held .shared)).summary 10 ≠ .idle := by
  refine ⟨?_, by decide⟩
  intro s h
  rcases h with rfl | rfl | rfl | rfl | rfl | rfl | rfl
  all_goals
    repeat' apply And.intro
    all_goals first | decide | exact one_of (n := 4095) (by decide) (by decide)

/-- A held claim of node 6 that finds no FREE slot, and ones that have to wait behind a loan with wait limit 0 and 1 and the
pool at 1023 and at 1024. -/
theorem witness_released_waits (k : Nat) (h : k = 8192) :
    (let s := heldBy6 (.claim 10 .sole 1 30) (slotsTaken k)
     (s.xl 10).queue = [] ∧ s.summary 10 = .idle ∧ s.lowestFree = none ∧ s.effective ext10 = .lent .output
      ∧ s.node 6 = some node6)
    ∧ (∀ w n, (w = 0 ∨ w = 1) → (n = 1023 ∨ n = 1024) →
       let f := { auth with argB := 40, offset := 6 }
       let s := heldBy6 (.claim 10 .sole 1 w) (pool n (withLoan (held .shared)))
       Taken s 1 51 f (legalHeld f) ∧ s.fences.held.look 0 = some ⟨waiting 1 6 40, .claim 10 .sole 1 w, 1, 1⟩
        ∧ s.node 6 = some node6 ∧ s.summary 10 ≠ .idle ∧ (∀ c ∈ (s.xl 10).queue, c.req.node ≠ 6)
        ∧ (∀ x ∈ s.loansOn 10, x.2.holder ≠ 6) ∧ s.poolUsed = n) := by
  refine ⟨⟨?_, ?_, ?_, ?_, ?_⟩, ?_⟩
  · exact (by decide : (base.xl 10).queue = [])
  · change (slotsTaken k).summary 10 = _
    unfold State.summary
    rw [slotsTaken_loansOn]
  · have same : ∀ fuel n, freeSlotFrom (heldBy6 (.claim 10 .sole 1 30) (slotsTaken k)) fuel n
        = freeSlotFrom (slotsTaken k) fuel n := by
      intro fuel
      induction fuel with
      | zero => exact fun _ => rfl
      | succ m ih =>
        intro n
        unfold freeSlotFrom
        rw [ih]
        rfl
    exact (same 8192 0).trans (slotsTaken_free k 8192 0 (by omega))
  · exact (by decide : base.effective ext10 = .lent .output)
  · exact (by decide : base.node 6 = some node6)
  · intro w n hw hn
    rcases hw with rfl | rfl <;> rcases hn with rfl | rfl
    all_goals
      unfold Taken
      decide +kernel

/-- Held claims of node 6, itself a holder on extent 10: a SHARED one, and SOLE ones with another upgrade pending, alone, and
beside another holder with the pool free and full; a SOLE one beside its own SOLE loan. -/
theorem witness_released_upgrade :
    (∀ m, m = Mode.shared ∨ m = .sole →
       let s := heldBy6 (.claim 10 m 1 30) (setLoan 0 { held .shared with holder := 6 } base)
       s.tables ∧ s.node 6 = some node6 ∧ s.extent 10 = some ext10 ∧ s.effective ext10 = .lent .output
        ∧ Policy.output.allows m = true ∧ (s.xl 10).drainMark = false ∧ (s.xl 10).queue = []
        ∧ s.ownLoan 6 10 = some (0, { held .shared with holder := 6 }) ∧ s.pendingUpgrade 10 = none
        ∧ s.loansOn 10 = [(0, { held .shared with holder := 6 })])
    ∧ (setLoan 0 { held .sole with holder := 6 } base).ownLoan 6 10 = some (0, { held .sole with holder := 6 })
    ∧ (∀ n st, (n = 1023 ∨ n = 1024) → (st = LoanState.held ∨ st = .upgrading) →
       let f := { auth with argB := 40, offset := 6 }
       let s := heldBy6 (.claim 10 .sole 1 30)
         (pool n (setLoan 1 { held .shared with state := st } (setLoan 0 { held .shared with holder := 6 } base)))
       s.tables ∧ Taken s 1 51 f (legalHeld f) ∧ s.ownLoan 6 10 = some (0, { held .shared with holder := 6 })
        ∧ (s.xl 10).queue = [] ∧ s.pendingUpgrade 10 = (if st = .held then none else some ⟨1, 3⟩)
        ∧ s.loansOn 10 ≠ [(0, { held .shared with holder := 6 })] ∧ s.poolUsed = n) := by
  refine ⟨?_, by decide, ?_⟩
  · intro m h
    rcases h with rfl | rfl
    all_goals
      unfold State.tables
      decide
  · intro n st hn hs
    rcases hn with rfl | rfl <;> rcases hs with rfl | rfl
    all_goals
      unfold State.tables Taken
      decide +kernel

/-- A held transfer of node 5 whose issue has passed, whose loan is CLOSING, a WRITE on a SHARED loan, and a READ and a WRITE
that go on; a held OPEN READ of an extent that has gone, past the extent, and in a forced drain of it. -/
theorem witness_released_transfers :
    (∀ l : LoanRec, l = held .sole ∨ l = held .shared ∨ l = { held .sole with state := .closing } →
      let f := { auth with argB := 40, offset := 5 }
      let s := setHeld [(0, ⟨waiting 6 5 40, .transfer true 0 3 10 15 1 [7], 1, 1⟩)] (withLoan l)
      s.oneAuthority ∧ Taken s 1 51 f (legalHeld f) ∧ s.heldBy ⟨0, 3⟩ 5 ∧ ¬ s.heldBy ⟨0, 2⟩ 5 ∧ s.loan 0 = l
        ∧ s.extent (s.loan 0).extent = some ext10 ∧ (s.bay ext10.bay).state = .ready ∧ (s.bay ext10.bay).queue.length < 16)
    ∧ (let f := { auth with argB := 40, offset := 5 }
       let s := draining none .force (setHeld [(0, ⟨waiting 7 5 40, .openRead 10 15 1, 1, 1⟩)] base)
       let t := setLoader { s.loader with mode := some .forced } s
       t.oneAuthority ∧ Taken t 1 51 f (legalHeld f) ∧ t.extent 10 = some ext10 ∧ 15 + 1 ≤ 2 ^ ext10.k ∧ 2 ^ ext10.k < 15 + 2
        ∧ t.loader.state = .draining ∧ 10 ∈ t.loader.affected ∧ t.loader.mode = some .forced ∧ t.extent 4095 = none
        ∧ s.loader.mode ≠ some .forced ∧ s.loader.escalated = false) := by
  refine ⟨?_, ?_⟩
  · intro l h
    rcases h with rfl | rfl | rfl
    all_goals
      refine ⟨⟨by decide, one_of (n := 4095) (by decide) (by decide)⟩, by unfold Taken; decide, by unfold State.heldBy; decide,
        by unfold State.heldBy; decide, by decide⟩
  · refine ⟨⟨by decide, one_of (n := 4095) (by decide) (by decide)⟩, by unfold Taken; decide, by decide⟩

/-- A held READ and OPEN READ that come to a bay in each state, with 15 and with 16 queued. -/
theorem witness_released_bays :
    ∀ (st : BayState) (n : Nat), st = .absent ∨ st = .ready ∨ st = .servicePending ∨ st = .service ∨ st = .failed →
      n = 15 ∨ n = 16 →
      let f := { auth with argB := 40, offset := 5 }
      let s := updBay 0 (fun y => { y with state := st }) (crowded n (withLoan (held .shared)))
      let r := setHeld [(0, ⟨waiting 5 5 40, .transfer false 0 3 10 15 1 [], 1, 1⟩)] s
      let o := setHeld [(0, ⟨waiting 7 5 40, .openRead 11 15 1, 1, 1⟩)] s
      r.oneAuthority ∧ Taken r 1 51 f (legalHeld f) ∧ r.heldBy ⟨0, 3⟩ 5 ∧ (r.loan 0).state ≠ .closing
        ∧ r.extent (r.loan 0).extent = some ext10 ∧ (r.bay ext10.bay).state = st ∧ (r.bay ext10.bay).queue.length = n
        ∧ o.oneAuthority ∧ Taken o 1 51 f (legalHeld f) ∧ o.extent 11 = some ext11 ∧ 15 + 1 ≤ 2 ^ ext11.k
        ∧ o.loader.state ≠ .draining ∧ (o.bay ext11.bay).state = st := by
  intro st n h g
  have one : ∀ s : State, s.roster = (withLoan (held .shared)).roster → s.oneAuthority := by
    intro s e
    refine ⟨e ▸ (by decide), one_of (n := 4095) (e ▸ by decide) (e ▸ by decide)⟩
  rcases h with rfl | rfl | rfl | rfl | rfl <;> rcases g with rfl | rfl
  all_goals
    refine ⟨one _ rfl, by unfold Taken; decide, by unfold State.heldBy; decide, by decide, by decide, by decide, by decide,
      one _ rfl, by unfold Taken; decide, by decide, by decide, by decide, by decide⟩

/-! ### Map Loader -/

/-- The loader in each of its states. -/
def loading (st : LoaderState) : State :=
  setLoader { opened.loader with state := st, openTimer := some 0, drainTimer := some 0 } base

/-- The loader requests in IDLE, OPEN, CHECKING and DRAINING: a staged number, and one that is not. -/
theorem witness_loader_requests :
    ∀ st, st = LoaderState.idle ∨ st = .opened ∨ st = .checking ∨ st = .draining →
      let s := loading st; let f := { auth with extent := 4095 }; let g := { auth with extent := 10 }
      let i := { auth with extent := 4095, body := List.replicate 14 1 }; let c := { auth with argA := 3, argB := 255 }
      s.oneAuthority ∧ s.loader.state = st ∧ Taken s 1 35 auth (legalPlain auth) ∧ Taken s 1 36 i (legalStage i)
        ∧ Taken s 1 37 f (legalByExtent f) ∧ Taken s 1 37 g (legalByExtent g) ∧ Taken s 1 38 f (legalByExtent f)
        ∧ Taken s 1 38 g (legalByExtent g) ∧ Taken s 1 39 c (legalCommit c)
        ∧ Taken s 1 39 { auth with argB := 1 } (legalCommit { auth with argB := 1 }) ∧ Taken s 1 40 auth (legalPlain auth)
        ∧ s.loader.staging.look 4095 = none ∧ s.loader.staging.look 10 = some ext10 := by
  intro st h
  rcases h with rfl | rfl | rfl | rfl
  all_goals
    repeat' apply And.intro
    all_goals first | decide | exact base_one

/-- CHECKING with these records staged and this machine. -/
def checking (staged : Tab ExtentRec) (s : State) : State :=
  setLoader { Loader.reset with
    state := .checking, staging := staged, mode := some .orderly, drainLimit := some 20, onLimit := some .discard
    commitOwed := some (waiting 39 4095 6) } s

/-- Staged records that differ from the map at extent 10 alone. -/
def staged10 : Tab ExtentRec := base.map.records.put 10 { ext10 with ceiling := 1 }

/-- The affected extents of that load are extent 10. -/
theorem affected10 (e : Nat) : e ∈ [10] ↔ base.map.records.look e ≠ staged10.look e := by
  constructor
  · intro h
    cases List.mem_singleton.1 h
    decide
  · intro h
    refine List.mem_singleton.2 (Classical.byContradiction fun ne => h ?_)
    exact (Tab.look_put_ne _ _ ne).symm

/-- DISCARD LOAD of a load whose COMMIT LOAD is owed on the same port, in its round. -/
theorem witness_discard_owed :
    let s := checking staged10 base
    s.oneAuthority ∧ Taken s 0 40 auth (legalPlain auth) ∧ s.loader.state ≠ .idle
      ∧ s.loader.commitOwed = some (waiting 39 4095 6) ∧ (waiting 39 4095 6).port = 0
      ∧ (waiting 39 4095 6).round = (s.port 0).round := by
  refine ⟨⟨by decide, one_of (n := 4095) (by decide) (by decide)⟩, by unfold Taken; decide, by decide, by decide, by decide,
    by decide⟩

/-- The walk ends where the check of the map does. -/
theorem walkEnds_of_check {m : Tab ExtentRec} {x : CheckFault} (rising : m.rising = true) (h : checkWalk [] m = some x) :
    WalkEnds m x.extent x.reason.code :=
  (walk_spec (earlier := []) ((Tab.rising_iff m).1 rising) (fun _ _ _ h => absurd h List.not_mem_nil)).2 x h |>.1

/-- A load of one record, 1, and of this record behind it. -/
def pair7 (r : ExtentRec) : Tab ExtentRec := [(1, ⟨0, 0, 1, true, true, true, 3⟩), (7, r)]

/-- Walks that end by each of the six tests, just outside its limit; one that passes, with values at all limits. -/
theorem witness_walks :
    WalkEnds (pair7 ⟨24, 0, 0, true, true, true, 3⟩) 7 1 ∧ WalkEnds (pair7 ⟨23, 0, 27, true, true, true, 3⟩) 7 2
    ∧ WalkEnds (pair7 ⟨23, 2 ^ 26 + 1, 26, true, true, true, 3⟩) 7 3 ∧ WalkEnds (pair7 ⟨23, 2 ^ 36, 0, true, true, true, 3⟩) 7 4
    ∧ WalkEnds (pair7 ⟨23, 0, 0, true, true, true, 4⟩) 7 5 ∧ WalkEnds (pair7 ⟨0, 1, 0, true, true, true, 3⟩) 7 6
    ∧ LegalMap (pair7 ⟨23, 2 ^ 36 - 2 ^ 26, 26, true, true, true, 3⟩) ∧ LegalMap (pair7 ⟨0, 2, 0, true, true, true, 3⟩)
    ∧ (checking (pair7 ⟨24, 0, 0, true, true, true, 3⟩) base).loader.staging.rising = true :=
  ⟨walkEnds_of_check (x := ⟨7, .bay, []⟩) (by decide) (by decide), walkEnds_of_check (x := ⟨7, .size, []⟩) (by decide) (by decide),
    walkEnds_of_check (x := ⟨7, .alignment, []⟩) (by decide) (by decide),
    walkEnds_of_check (x := ⟨7, .end_, []⟩) (by decide) (by decide),
    walkEnds_of_check (x := ⟨7, .ceiling, []⟩) (by decide) (by decide),
    walkEnds_of_check (x := ⟨7, .overlap, [1]⟩) (by decide) (by decide), legalMap_of_checkWalk (by decide),
    legalMap_of_checkWalk (by decide), by decide⟩

/-- A check that passes, with extent 10 free, lent, and read. -/
theorem witness_check :
    staged10.rising = true ∧ LegalMap staged10
    ∧ (∀ s : State, s = base ∨ s = withLoan (held .shared) ∨ s = updXl 10 (fun x => { x with openReads := 1 }) base →
        let t := checking staged10 s
        t.loader.state = .checking ∧ t.loader.staging = staged10 ∧ t.map.records = base.map.records
          ∧ (∀ e ∈ [10], (t.xl e).queue = []) ∧ t.loader.mode = some .orderly)
    ∧ (∀ e ∈ [10], (checking staged10 base).loansOn e = [] ∧ ((checking staged10 base).xl e).openReads = 0)
    ∧ (∃ e ∈ [10], (checking staged10 (withLoan (held .shared))).loansOn e ≠ [])
    ∧ (∃ e ∈ [10], ((checking staged10 (updXl 10 (fun x => { x with openReads := 1 }) base)).xl e).openReads ≠ 0)
    ∧ base.loader.state ≠ .checking := by
  refine ⟨by decide, legalMap_of_checkWalk (by decide), ?_, by decide, by decide, by decide, by decide⟩
  intro s h
  rcases h with rfl | rfl | rfl
  all_goals decide

/-- A claim and a loan on the affected extent; an UPGRADE entry of the loan; a claim with no loan. -/
theorem witness_check_claims :
    (∀ s : State, s = withQueue [entry 6 2 .sole 1 9] (withLoan (held .shared)) ∨ s = upgrading (withLoan (held .shared))
        ∨ s = withQueue [entry 6 2 .sole 1 9] base →
      let t := checking staged10 s
      t.loader.state = .checking ∧ t.loader.staging = staged10 ∧ t.map.records = base.map.records
        ∧ t.loader.mode = some .orderly ∧ t.tables ∧ ∃ e ∈ [10], (t.xl e).queue ≠ [])
    ∧ (∃ e ∈ [10], (checking staged10 (upgrading (withLoan (held .shared)))).loansOn e ≠ [])
    ∧ (let t := checking staged10 (withQueue [entry 6 2 .sole 1 9] base)
       ∀ e ∈ [10], t.loansOn e = [] ∧ (t.xl e).openReads = 0)
    ∧ [10].Nodup := by
  refine ⟨?_, by decide, by decide, by decide⟩
  intro s h
  rcases h with rfl | rfl | rfl
  all_goals
    unfold State.tables
    decide

/-- A FORCED commit that meets a loan with nothing in flight, one with a transfer in flight, one with a claim behind it, one with
its UPGRADE entry, and a queued OPEN READ. -/
def forced (s : State) : State :=
  let t := checking staged10 s
  setLoader { t.loader with mode := some .forced } t

theorem witness_check_forced :
    ∀ s : State, s = withLoan (held .sole) ∨ s = busyLoan (held .sole) 2 ∨ s = withQueue [entry 6 2 .sole 1 9] (withLoan (held .sole))
        ∨ s = upgradingBefore [entry 6 2 .shared 1 9] (withLoan (held .shared))
        ∨ s = updBay 0 (fun y => { y with queue := [transfer .openRead none (some 10)] })
            (updXl 10 (fun x => { x with openReads := 1 }) base) →
      let t := forced s
      t.loader.state = .checking ∧ t.map.records = base.map.records
        ∧ t.loader.staging = staged10 ∧ t.loader.mode = some .forced ∧ t.tables ∧ t.loans.tableWait = []
        ∧ (∀ e ∈ [10], ∀ c ∈ (t.xl e).queue, c.kind = .shared ∨ c.kind = .sole ∨ c.kind = .upgrade ⟨0, 3⟩ ∧ (t.loan 0).extent = e)
        ∧ (∃ e ∈ [10], t.loansOn e ≠ [] ∨ (t.xl e).queue ≠ [] ∨ (t.xl e).openReads ≠ 0)
        ∧ t.openReadsPlain ∧ ∀ b, (t.bay b).state ≠ .servicePending := by
  intro s h
  rcases h with rfl | rfl | rfl | rfl | rfl
  all_goals
    refine ⟨by decide, by decide, by decide, by decide, by unfold State.tables; decide, by decide, by decide,
      by decide, ?_, ?_⟩
    · exact forall_bay (P := fun y => ∀ x ∈ y.queue, x.kind = .openRead → x.handle = none) (by decide) (by decide)
    · exact forall_bay (P := fun y => y.state ≠ .servicePending) (by decide) (by decide)

/-- SWAP: a DRAINING load with nothing left, with one watch on its extents, and with a loan left. -/
theorem witness_swap :
    (let s := draining none .force (watched .armed)
     s.loader.state = .draining ∧ (∀ e ∈ s.loader.affected, s.loansOn e = [] ∧ (s.xl e).openReads = 0)
      ∧ s.watches.filter (fun y => decide (y.2.extent ∈ s.loader.affected)) = [(watchKey 10 6, ⟨6, 10, 41, .armed⟩)])
    ∧ (let s := draining none .force (withLoan (held .shared)); ∃ e ∈ s.loader.affected, s.loansOn e ≠ [])
    ∧ base.loader.state ≠ .draining := by decide

/-- The loader's timers at 0 and at 1; DISCARD, and FORCE with an open read left in flight. -/
theorem witness_loader_timers :
    ((loading .opened).loader.state = .opened ∧ (loading .opened).loader.openTimer = some 0)
    ∧ opened.loader.openTimer ≠ some 0 ∧ base.loader.state ≠ .opened
    ∧ (let s := draining (some 0) .discard base
       s.loader.state = .draining ∧ s.loader.drainTimer = some 0 ∧ s.loader.onLimit = some .discard)
    ∧ (draining (some 1) .discard base).loader.drainTimer ≠ some 0
    ∧ (let s := draining (some 0) .force (updXl 10 (fun x => { x with openReads := 1 }) base)
       s.loader.onLimit = some .force ∧ (∃ e ∈ s.loader.affected, (s.xl e).openReads ≠ 0)
        ∧ (∀ e ∈ s.loader.affected, s.loansOn e = []))
    ∧ (∀ b, ∀ x ∈ ((draining (some 0) .force (updXl 10 (fun x => { x with openReads := 1 }) base)).bay b).queue, x.kind ≠ .openRead) := by
  refine ⟨by decide, by decide, by decide, by decide, by decide, by decide, ?_⟩
  exact forall_bay (P := fun y => ∀ x ∈ y.queue, x.kind ≠ .openRead) (by decide) (by decide)

/-- FORCE at the drain limit with a loan that is freed, one with a transfer in flight, and a queued OPEN READ. -/
theorem witness_drain_forced :
    ∀ s : State, s = withLoan (held .sole) ∨ s = busyLoan (held .sole) 2
        ∨ s = updBay 0 (fun y => { y with queue := [transfer .openRead none (some 10)] })
            (updXl 10 (fun x => { x with openReads := 1 }) base) →
      let t := draining (some 0) .force s
      t.loader.state = .draining ∧ t.loader.drainTimer = some 0 ∧ t.loader.onLimit = some .force
        ∧ (∀ e ∈ t.loader.affected, (t.xl e).queue = []) ∧ t.loader.affected.Nodup ∧ t.tables ∧ t.loans.tableWait = []
        ∧ t.openReadsPlain ∧ ∀ b, (t.bay b).state ≠ .servicePending := by
  intro s h
  rcases h with rfl | rfl | rfl
  all_goals
    refine ⟨by decide, by decide, by decide, by decide, by decide, by unfold State.tables; decide, by decide, ?_, ?_⟩
    · exact forall_bay (P := fun y => ∀ x ∈ y.queue, x.kind = .openRead → x.handle = none) (by decide) (by decide)
    · exact forall_bay (P := fun y => y.state ≠ .servicePending) (by decide) (by decide)

/-! ### Node Roster -/

/-- A node setting item for a node id. -/
def setting (n quota : Nat) (write ceiling role : Byte) : Frame :=
  { auth with offset := BitVec.ofNat 32 n, body := [BitVec.ofNat 8 quota, write, ceiling, role] }

/-- A roster with as many records as given beside the base state's, in ids from 1000 on. -/
def crowd (n : Nat) : State :=
  setRoster ([(5, node5), (6, node6), (7, node7), (8, node8)] ++ (List.range n).map (fun k => (1000 + k, node7))
    ++ [(4095, NodeRec.reset)]) base

/-- ENROLL NODE and SET NODE: id 1 free, an id that is enrolled, 511 and 512 records, an unknown id; quotas 1 and 64, below
and at what the node holds; the authority's own record. -/
theorem witness_enroll_set :
    base.oneAuthority
    ∧ (let f := setting 1 64 1 3 0; Taken base 1 53 f (legalEnroll f) ∧ base.node (offsetOf f) = none ∧ base.roster.length < 512)
    ∧ (let f := setting 6 1 0 0 0; Taken base 1 53 f (legalEnroll f) ∧ base.node (offsetOf f) ≠ none)
    ∧ (let f := setting 1 1 1 3 0; Taken (crowd 506) 1 53 f (legalEnroll f) ∧ (crowd 506).node (offsetOf f) = none
        ∧ (crowd 506).roster.length < 512 ∧ (crowd 506).oneAuthority)
    ∧ (let f := setting 1 1 1 3 0; Taken (crowd 507) 1 53 f (legalEnroll f) ∧ (crowd 507).node (offsetOf f) = none
        ∧ 512 ≤ (crowd 507).roster.length ∧ (crowd 507).oneAuthority)
    ∧ (let f := setting 9 1 1 3 1; Taken base 1 54 f (legalSetting f) ∧ base.node (offsetOf f) = none)
    ∧ (let f := setting 6 63 1 3 0; Taken full6 1 54 f (legalSetting f) ∧ settingTakesRole f = false ∧ settingQuota f < 63 + 1
        ∧ full6.node (offsetOf f) = some { node6 with held := 63, waiting := 1 } ∧ full6.oneAuthority)
    ∧ (let f := setting 6 64 0 0 0; Taken full6 1 54 f (legalSetting f) ∧ settingTakesRole f = false ∧ 63 + 1 ≤ settingQuota f)
    ∧ (let f := setting 4095 1 1 3 1; Taken base 1 54 f (legalSetting f) ∧ settingTakesRole f = true
        ∧ base.node (offsetOf f) = some NodeRec.reset ∧ NodeRec.reset.role = .authority) := by
  repeat' apply And.intro
  all_goals first
    | decide +kernel
    | exact one_of (n := 4095) (by decide +kernel) (by decide +kernel)

/-- The role move: a BARRED record, a record that holds, waits or has a tag in use, and a quiet one. -/
theorem witness_role_move :
    (let f := setting 8 1 1 3 1; Taken base 1 54 f (legalSetting f) ∧ base.oneAuthority ∧ settingTakesRole f = true
      ∧ base.node (offsetOf f) = some node8 ∧ node8.role = .render ∧ node8.state = .barred)
    ∧ (let f := setting 5 64 1 3 1; Taken base 1 54 f (legalSetting f) ∧ base.node (offsetOf f) = some node5 ∧ node5.tags ≠ 0
      ∧ Taken (withLoan (held .sole)) 1 54 f (legalSetting f) ∧ ((withLoan (held .sole)).node 5).map (·.held) = some 1)
    ∧ (let f := setting 6 64 1 3 1; let s := withQueue [entry 6 2 .sole 1 9] base
       Taken s 1 54 f (legalSetting f) ∧ s.oneAuthority ∧ s.hasEntry (offsetOf f) = true)
    ∧ (let f := setting 6 1 0 0 1; let s := watched .armed
       Taken s 1 54 f (legalSetting f) ∧ s.oneAuthority ∧ s.node (offsetOf f) = some node6 ∧ node6.state ≠ .barred
        ∧ node6.held = 0 ∧ s.hasEntry (offsetOf f) = false ∧ node6.tags = 0) := by
  repeat' apply And.intro
  all_goals first | decide | exact one_of (n := 4095) (by decide) (by decide)

/-- BAR, UNBAR and REMOVE NODE: an unknown id, the authority's, a quiet node with a watch, BARRED ones, and one that holds. -/
theorem witness_bar_remove :
    (∀ n, n = 9 ∨ n = 4095 ∨ n = 6 ∨ n = 7 ∨ n = 8 → let f := { auth with offset := BitVec.ofNat 32 n }; let s := watched .armed
      s.oneAuthority ∧ Taken s 1 55 f (legalByNode f) ∧ Taken s 1 56 f (legalByNode f) ∧ Taken s 1 57 f (legalByNode f)
        ∧ (∀ x ∈ s.fences.held, x.2.req.node ≠ offsetOf f) ∧ s.hasEntry (offsetOf f) = false ∧ s.loansOf (offsetOf f) = [])
    ∧ (let s := watched .armed
       s.node 9 = none ∧ s.node 4095 = some NodeRec.reset ∧ s.node 6 = some node6 ∧ s.node 7 = some node7 ∧ s.node 8 = some node8
        ∧ node6.role = .render ∧ node6.state ≠ .barred ∧ node8.role = .render ∧ node8.state = .barred
        ∧ (∃ x ∈ s.watches, x.2.node = 6) ∧ (∀ x ∈ s.watches, x.2.node ≠ 7) ∧ node7.held = 0 ∧ node7.tags = 0)
    ∧ (∀ b, ∀ x ∈ ((watched .armed).bay b).queue, x.kind ≠ .openRead ∨ x.req.node ≠ 6)
    ∧ (let f := { auth with offset := 5 }; Taken base 1 57 f (legalByNode f) ∧ base.node 5 = some node5 ∧ node5.tags ≠ 0)
    ∧ (let s := updNode 8 (fun r => { r with learned := none }) base; (s.node 8).map (·.learned) = some none) := by
  refine ⟨?_, ?_, ?_, ?_, by decide⟩
  · intro n h
    rcases h with rfl | rfl | rfl | rfl | rfl
    all_goals
      repeat' apply And.intro
      all_goals first | decide | exact one_of (n := 4095) (by decide) (by decide)
  · repeat' apply And.intro
    all_goals decide
  · exact forall_bay (P := fun y => ∀ x ∈ y.queue, x.kind ≠ .openRead ∨ x.req.node ≠ 6) (by decide) (by decide)
  · unfold Taken
    decide

/-- Node 5 with a SHARED loan, a WRITE in flight and a READ queued, an OPEN READ queued, its UPGRADE entry, a claim on another
extent, a held request, and a watch. -/
def barred5 : State :=
  setWatches [(watchKey 10 5, ⟨5, 10, 41, .armed⟩)]
    (setHeld [(0, ⟨waiting 1 5 41, .claim 13 .sole 1 30, 9, 1⟩)]
      (updXl 13 (fun x => { x with queue := [entry 5 3 .sole 1 9] })
        (updXl 11 (fun x => { x with openReads := 1 })
          (updBay 0 (fun y => { y with queue := y.queue ++ [transfer .openRead none (some 11)] })
            (upgrading (busyLoan (held .shared) 2))))))

/-- BAR NODE of a node with all of that. -/
theorem witness_bar_unwinds :
    let s := barred5; let f := { auth with offset := 5 }
    s.oneAuthority ∧ Taken s 1 55 f (legalByNode f) ∧ (s.node (offsetOf f)).map (·.role) = some .render
      ∧ (s.node (offsetOf f)).map (·.state) = some .present ∧ s.tables ∧ s.openReadsPlain ∧ s.loans.tableWait = []
      ∧ s.loader.state ≠ .draining ∧ (∀ b, (s.bay b).state ≠ .servicePending)
      ∧ (∀ e, (∃ c ∈ (s.xl e).queue, c.req.node = offsetOf f) ∨ (∃ x ∈ s.loansOn e, x.2.holder = offsetOf f) →
          ∀ c ∈ (s.xl e).queue, c.req.node = offsetOf f)
      ∧ (∀ e, ∀ c ∈ (s.xl e).queue, c.req.node = offsetOf f → ∀ h, c.kind = .upgrade h →
          (s.loan h.slot).holder = offsetOf f) := by
  refine ⟨⟨by decide, one_of (n := 4095) (by decide) (by decide)⟩, by unfold Taken; decide, by decide, by decide,
    by unfold State.tables; decide, ?_, by decide, by decide, ?_, ?_, ?_⟩
  · exact forall_bay (P := fun y => ∀ x ∈ y.queue, x.kind = .openRead → x.handle = none) (by decide) (by decide)
  · exact forall_bay (P := fun y => y.state ≠ .servicePending) (by decide) (by decide)
  · intro e _
    exact forall_val (P := fun x : ExtentLoans => ∀ c ∈ x.queue, c.req.node = 5) (by decide) (by decide) e
  · refine forall_val (P := fun x : ExtentLoans => ∀ c ∈ x.queue, c.req.node = 5 → ∀ h, c.kind = .upgrade h →
      (barred5.loan h.slot).holder = 5) ?_ (fun c hc => absurd hc (List.not_mem_nil))
    have slots : ∀ x ∈ barred5.loans.extents, ∀ c ∈ x.2.queue, c.kind = .sole ∨ c.kind = .upgrade ⟨0, 3⟩ := by decide
    intro x hx c hc _ h hk
    rcases slots x hx c hc with k | k
    · rw [k] at hk; cases hk
    · rw [k] at hk; cases hk; decide

/-! ### Bays -/

/-- Bay 0 in a state, and bay 23 in it. -/
def bayIn (st : BayState) (s : State) : State :=
  s |> updBay 0 (fun y => { y with state := st }) |> updBay 23 (fun y => { y with state := st })

/-- SERVICE BAY and RETURN BAY in each state of B0 and B23, ORDERLY and FORCED. -/
theorem witness_bay_requests :
    ∀ st, st = BayState.absent ∨ st = .ready ∨ st = .servicePending ∨ st = .service ∨ st = .failed →
      ∀ b, b = 0 ∨ b = 23 → let s := bayIn st base; let f := { auth with extent := BitVec.ofNat 16 b, argA := 1 }
      let g := { auth with extent := BitVec.ofNat 16 b }
      s.oneAuthority ∧ Taken s 1 41 f (legalServiceBay f) ∧ Taken s 1 41 g (legalServiceBay g) ∧ Taken s 1 44 g (legalByBay g)
        ∧ (s.bay b).state = st ∧ (s.bay b).queue = [] ∧ (s.bay b).inFlight = none ∧ f.argA.toNat = 1 ∧ g.argA.toNat = 0
        ∧ (∀ e ∈ s.bayExtents b, s.loansOn e = [] ∧ (s.xl e).queue = [] ∧ (s.xl e).openReads = 0) := by
  intro st h b k
  rcases h with rfl | rfl | rfl | rfl | rfl <;> rcases k with rfl | rfl
  all_goals
    repeat' apply And.intro
    all_goals first | decide | exact base_one

/-- B0 with a loan on one of its extents, or an open read; a SERVICE bay with a transfer queued or in flight; a SERVICE_PENDING
bay with nothing left and with a loan. -/
theorem witness_bay_service :
    (∃ e ∈ (withLoan (held .shared)).bayExtents 0, (withLoan (held .shared)).loansOn e ≠ [])
    ∧ (let s := updXl 11 (fun x => { x with openReads := 1 }) base
       (∃ e ∈ s.bayExtents 0, (s.xl e).openReads ≠ 0) ∧ (∀ e ∈ s.bayExtents 0, s.loansOn e = [] ∧ (s.xl e).queue = [])
        ∧ ∀ x ∈ (s.bay 0).queue, x.kind ≠ .openRead)
    ∧ (let s := bayIn .service (crowded 1 base); (s.bay 0).state = .service ∧ (s.bay 0).queue ≠ [] ∧ (s.bay 0).inFlight ≠ none)
    ∧ (pendingBay.bay 0).state = .servicePending
    ∧ (∀ e ∈ pendingBay.bayExtents 0, pendingBay.loansOn e = [] ∧ (pendingBay.xl e).openReads = 0)
    ∧ (let s := bayIn .servicePending (withLoan { held .shared with state := .closing })
       (s.bay 0).state = .servicePending ∧ ∃ e ∈ s.bayExtents 0, s.loansOn e ≠ []) := by decide

/-- Where the UPGRADE entries are of the loan in slot 0, on its own extent, every one names a loan of its extent. -/
theorem upgrade_extent {s : State} (h0 : ∀ x ∈ s.loans.extents, ∀ c ∈ x.2.queue, c.kind = .sole ∨ c.kind = .upgrade ⟨0, 3⟩ ∧ x.1 = 10)
    (h1 : (s.loan 0).extent = 10) :
    ∀ x ∈ s.loans.extents, ∀ c ∈ x.2.queue, ∀ h, c.kind = .upgrade h → (s.loan h.slot).extent = x.1 := by
  intro x hx c hc h hk
  rcases h0 x hx c hc with k | ⟨k, e⟩
  · rw [k] at hk; cases hk
  · rw [k] at hk; cases hk; rw [e]; exact h1

/-- SERVICE BAY, ORDERLY and FORCED, of B0 with a loan, its WRITE in flight and READ queued, an OPEN READ queued, its UPGRADE
entry and a claim on another extent; and with that loan alone and its UPGRADE entry. -/
theorem witness_service_unwinds :
    ∀ a s, (a = 0 ∨ a = 1) → (s = barred5 ∨ s = upgrading (withLoan (held .shared))) →
      let f : Frame := { auth with extent := 0, argA := a }
      s.oneAuthority ∧ Taken s 1 41 f (legalServiceBay f) ∧ (s.bay 0).state = .ready ∧ s.tables ∧ s.openReadsPlain
        ∧ s.loans.tableWait = [] ∧ s.loader.state ≠ .draining ∧ (∀ c, (s.bay c).state ≠ .servicePending)
        ∧ (∀ e ∈ s.bayExtents 0, ∀ c ∈ (s.xl e).queue, ∀ h, c.kind = .upgrade h → (s.loan h.slot).extent = e)
        ∧ (∃ e ∈ s.bayExtents 0, (s.xl e).queue ≠ [] ∧ s.loansOn e ≠ []) := by
  intro a s ha hs
  rcases ha with rfl | rfl <;> rcases hs with rfl | rfl
  all_goals
    refine ⟨⟨by decide, one_of (n := 4095) (by decide) (by decide)⟩, by unfold Taken; decide, by decide,
      by unfold State.tables; decide, forall_bay (P := fun y => ∀ x ∈ y.queue, x.kind = .openRead → x.handle = none)
        (by decide) (by decide), by decide, by decide, forall_bay (P := fun y => y.state ≠ .servicePending) (by decide) (by decide),
      fun e _ => forall_key (P := fun e (x : ExtentLoans) => ∀ c ∈ x.queue, ∀ h, c.kind = .upgrade h → (State.loan _ h.slot).extent = e)
        (upgrade_extent (by decide) (by decide)) (fun _ c hc => absurd hc (List.not_mem_nil)) e, by decide⟩

/-- Bay 2 in SERVICE with 100 blocks and as many transfers queued as given. -/
def serving (n : Nat) : State := updBay 2 (fun y => { y with queue := List.replicate n (transfer .serviceRead none none) }) base

/-- SERVICE READ and SERVICE WRITE of the last blocks and one past them, at bays in SERVICE and not, with 0, 15 and 16 queued. -/
theorem witness_service_transfers :
    (∀ n, n = 0 ∨ n = 15 ∨ n = 16 → let f := { auth with extent := 2, offset := 98, argB := 2 }; let s := serving n
      s.oneAuthority ∧ Taken s 1 42 f (legalServiceRead f) ∧ (s.bay 2).state = .service ∧ (s.bay 2).capacity = 100
        ∧ f.blockHigh.toNat * 2 ^ 32 + f.offset.toNat + f.argB.toNat ≤ 100 ∧ (s.bay 2).queue.length = n)
    ∧ (let f := { auth with extent := 2, offset := 99, argB := 2 }
       Taken base 1 42 f (legalServiceRead f) ∧ 100 < f.blockHigh.toNat * 2 ^ 32 + f.offset.toNat + f.argB.toNat)
    ∧ (let f := { auth with extent := 2, blockHigh := 15, argB := 1 }
       Taken base 1 42 f (legalServiceRead f) ∧ 100 < f.blockHigh.toNat * 2 ^ 32 + f.offset.toNat + f.argB.toNat)
    ∧ (let f := { auth with extent := 23, argB := 1 }; Taken base 1 42 f (legalServiceRead f) ∧ (base.bay 23).state ≠ .service)
    ∧ (let f := oneBlock { auth with extent := 2, offset := 99 }
       Taken (serving 15) 1 43 f (legalServiceWrite f) ∧ f.blockHigh.toNat * 2 ^ 32 + f.offset.toNat + f.argB.toNat ≤ 100) := by
  refine ⟨?_, ?_, ?_, ?_, ?_⟩
  · intro n h
    rcases h with rfl | rfl | rfl
    all_goals
      repeat' apply And.intro
      all_goals first | decide | exact base_one
  · unfold Taken; decide
  · unfold Taken; decide
  · unfold Taken; decide
  · unfold Taken; decide +kernel

/-- SERVICE WRITE on a bay that is not in SERVICE, past the disk, and with 16 queued. -/
theorem witness_service_write_refused :
    (let f := oneBlock { auth with extent := 23 }; Taken base 1 43 f (legalServiceWrite f) ∧ (base.bay 23).state ≠ .service)
    ∧ (let f := oneBlock { auth with extent := 2, offset := 100 }
       Taken base 1 43 f (legalServiceWrite f) ∧ (base.bay 2).state = .service
        ∧ (base.bay 2).capacity < f.blockHigh.toNat * 2 ^ 32 + f.offset.toNat + f.argB.toNat)
    ∧ (let f := oneBlock { auth with extent := 2 }; let s := serving 16
       Taken s 1 43 f (legalServiceWrite f) ∧ (s.bay 2).state = .service ∧ 16 ≤ (s.bay 2).queue.length
        ∧ f.blockHigh.toNat * 2 ^ 32 + f.offset.toNat + f.argB.toNat ≤ (s.bay 2).capacity) := by
  unfold Taken
  decide +kernel

/-- ISSUE: a queue in READY, SERVICE_PENDING and SERVICE with nothing in flight; in flight, empty, ABSENT, FAILED. -/
theorem witness_issue :
    (∀ st, st = BayState.ready ∨ st = .servicePending ∨ st = .service →
      let s := updBay 0 (fun y => { y with inFlight := none, state := st }) (crowded 2 base)
      (s.bay 0).inFlight = none ∧ (s.bay 0).queue ≠ [] ∧ (s.bay 0).state ≠ .absent ∧ (s.bay 0).state ≠ .failed)
    ∧ ((crowded 1 base).bay 0).inFlight ≠ none ∧ (base.bay 0).queue = [] ∧ (base.bay 23).state = .absent
    ∧ ((bayIn .failed base).bay 23).state = .failed := by
  refine ⟨?_, by decide⟩
  intro st h
  rcases h with rfl | rfl | rfl
  all_goals decide

/-- An OPEN READ of extent 11 in flight on B0, its reply sent or not. -/
def opening (sent : Bool) : State :=
  updBay 0 (fun y => { y with inFlight := some (fly (transfer .openRead none (some 11)) 31 sent) })
    (updXl 11 (fun x => { x with openReads := 1 }) base)

/-- Nothing but an entry into service of that bay waits on an end on the extent. -/
theorem quietBut_of {s : State} {b e : Nat} (h : s.loader.state ≠ .draining)
    (all : (s.extent e).all (fun r => decide ((s.bay r.bay).state = .servicePending → r.bay = b)) = true) : QuietBut s b e :=
  ⟨h, forall_found all⟩

/-- The last transfer of a live loan and of a CLOSING one, and an OPEN READ, at 32 ticks on a READY and on a SERVICE_PENDING bay
with one timeout before. -/
theorem witness_pending_ends :
    ∀ (s : State) (st : BayState), s = inFlight 7
        ∨ s = updLoan 0 (fun l => { l with state := .closing, cause := some .released, releaseOwed := some (waiting 4 5 40) }) (inFlight 7)
        ∨ s = opening false → st = .ready ∨ st = .servicePending →
      let t := updBay 0 (fun y => { y with
        state := st, serviceOwed := if st = .ready then none else some (waiting 41 4095 3), timeouts := 1
        inFlight := y.inFlight.map (fun fl => { fl with ticks := 32 }) }) s
      (t.bay 0).state = st ∧ (∃ fl, (t.bay 0).inFlight = some fl ∧ fl.seq = 9 ∧ 32 ≤ fl.ticks ∧ fl.replySent = false)
        ∧ (t.loan 0).outstanding ≤ 1 ∧ (∀ e, e = 10 ∨ e = 11 → QuietBut t 0 e) ∧ (t.xl 10).queue = [] ∧ t.loans.tableWait = []
        ∧ (t.bay 0).timeouts < 2 := by
  intro s st h g
  rcases h with rfl | rfl | rfl <;> rcases g with rfl | rfl
  all_goals
    refine ⟨by decide, ⟨_, rfl, rfl, by decide, rfl⟩, by decide, fun e he => ?_, by decide, by decide, by decide⟩
    rcases he with rfl | rfl
    all_goals exact quietBut_of (by decide) (by decide)

/-- A transfer of a live loan in flight with number 9, of each kind, its reply sent or not. -/
theorem witness_loan_report :
    ∀ k sent, k = TransferKind.read ∨ k = .write → sent = true ∨ sent = false →
      let s := updBay 0 (fun y => { y with inFlight := some (fly (transfer k (some ⟨0, 3⟩) (some 10)) 31 sent) })
        (withLoan { held .sole with outstanding := 1, writes := 65535 })
      (s.bay 0).inFlight = some (fly (transfer k (some ⟨0, 3⟩) (some 10)) 31 sent) ∧ (s.loan 0).issue = 3 ∧ (s.loan 0).state = .held
        ∧ (s.bay 0).state = .ready ∧ (9 : BitVec 16) ≠ 8 ∧ (transfer k (some ⟨0, 3⟩) (some 10)).handle = some ⟨0, 3⟩ := by
  intro k sent h g
  rcases h with rfl | rfl <;> rcases g with rfl | rfl
  all_goals decide

/-- The last transfer of a CLOSING loan: a WRITE of a released SOLE loan with its reply owed, of a revoked one, and a READ of a
detached one whose reply has been sent. -/
theorem witness_last_transfer :
    ∀ s cause sent, (s = updLoan 0 (fun l => { l with
          state := .closing, cause := some .released, releaseOwed := some (waiting 4 5 40) }) (inFlight 7)
          ∧ cause = EndCause.released ∧ sent = false)
        ∨ (s = updLoan 0 (fun l => { l with state := .closing, cause := some (.revoked .map) }) (inFlight 7)
          ∧ cause = .revoked .map ∧ sent = false)
        ∨ (s = updBay 0 (fun y => { y with inFlight := some (fly (transfer .read (some ⟨0, 3⟩) (some 10)) 31 true) })
            (updLoan 0 (fun l => { l with state := .closing, cause := some (.revoked .reset), holder := 0 }) (inFlight 7))
          ∧ cause = .revoked .reset ∧ sent = true) →
      (∃ fl, (s.bay 0).inFlight = some fl ∧ fl.seq = 9 ∧ fl.replySent = sent ∧ fl.transfer.handle = some ⟨0, 3⟩
        ∧ (fl.transfer.kind = .read ∨ fl.transfer.kind = .write) ∧ fl.transfer.req.port = 0)
      ∧ (s.loan 0).issue = 3 ∧ (s.bay 0).state = .ready ∧ (s.loan 0).state = .closing ∧ (s.loan 0).outstanding ≤ 1
        ∧ (s.xl (s.loan 0).extent).queue = [] ∧ s.loans.tableWait = [] ∧ QuietBut s 0 (s.loan 0).extent
        ∧ (s.loan 0).cause = some cause ∧ (s.port 0).up = true ∧ (s.port 0).round = 1 := by
  intro s cause sent h
  rcases h with ⟨rfl, rfl, rfl⟩ | ⟨rfl, rfl, rfl⟩ | ⟨rfl, rfl, rfl⟩
  all_goals
    exact ⟨⟨_, rfl, rfl, rfl, rfl, by decide, rfl⟩, by decide, by decide, by decide, by decide, by decide, by decide,
      quietBut_of (by decide) (by decide), by decide, by decide, by decide⟩

/-- The end of an OPEN READ on a READY bay, and of a SERVICE READ on a bay in SERVICE. -/
theorem witness_other_reports :
    (∀ sent, let s := opening sent
      (s.bay 0).inFlight = some (fly (transfer .openRead none (some 11)) 31 sent) ∧ (s.bay 0).state = .ready
        ∧ QuietBut s 0 11 ∧ (∀ r, s.extent 11 = some r → (s.bay r.bay).state ≠ .servicePending)
        ∧ (fly (transfer .openRead none (some 11)) 31 sent).transfer.handle = none)
    ∧ (∀ sent, let s := updBay 2 (fun y => { y with inFlight := some (fly (transfer .serviceRead none none) 31 sent) }) base
      (s.bay 2).inFlight = some (fly (transfer .serviceRead none none) 31 sent) ∧ (s.bay 2).state = .service) := by
  refine ⟨?_, by decide⟩
  intro sent
  cases sent
  all_goals
    exact ⟨by decide, by decide, quietBut_of (by decide) (by decide), forall_found (by decide), rfl⟩

/-- A SERVICE WRITE in flight on bay 2; a bay with nothing in flight. -/
theorem witness_service_report :
    (∀ k, k = TransferKind.serviceRead ∨ k = .serviceWrite →
      let s := updBay 0 (fun y => { y with state := .service, inFlight := some (fly ⟨k, waiting 43 4095 3, none, none, 15, 2, []⟩ 32 false) })
        (watched .armed)
      s.lookupSpan 0 15 2 = [10, 11] ∧ (s.bay 0).timeouts < 2
        ∧ s.watches.filter (fun y => decide (y.2.extent ∈ [10, 11]) && decide (y.2.state = .armed))
            = [(watchKey 10 6, ⟨6, 10, 41, .armed⟩)])
    ∧ ∀ sent, sent = true ∨ sent = false →
      let s := updBay 2 (fun y => { y with inFlight := some (fly (transfer .serviceWrite none none) 31 sent) }) base
      (s.bay 2).inFlight = some (fly (transfer .serviceWrite none none) 31 sent) ∧ (s.bay 2).state = .service
        ∧ (transfer .serviceWrite none none).handle = none ∧ (base.bay 2).inFlight = none := by
  refine ⟨?_, ?_⟩
  · intro k h
    rcases h with rfl | rfl
    all_goals decide
  intro sent h
  rcases h with rfl | rfl
  all_goals decide

/-- A transfer in flight at 31 ticks beside one at 30. -/
theorem witness_thirty_second_tick :
    let s := flying 2 (transfer .serviceRead none none) 30 (flying 0 (transfer .openRead none (some 11)) 31 base)
    (s.bay 0).inFlight = some (fly (transfer .openRead none (some 11)) 31 false)
      ∧ ∀ c, c ≠ 0 → ∀ x, (s.bay c).inFlight = some x → x.ticks < 31 := by
  refine ⟨by decide, fun c hc => ?_⟩
  by_cases h : c < 24
  · exact forall_found ((by decide : ∀ b : Fin 24, b.val ≠ 0 →
      ((flying 2 (transfer .serviceRead none none) 30 (flying 0 (transfer .openRead none (some 11)) 31 base)).bay b.val).inFlight.all
        (fun fl => decide (fl.ticks < 31)) = true) ⟨c, h⟩ hc)
  · intro x hx
    simp [State.bay, h] at hx
    cases hx

/-- Transfers in flight at 30 ticks; at 31 and at 32 of a loan, with timeouts 0 and 1; at 32 of a SERVICE bay at its third. -/
theorem witness_ticks :
    (∀ b, ∀ fl, ((flying 0 (transfer .openRead none (some 11)) 30 base).bay b).inFlight = some fl → fl.ticks < 31)
    ∧ (∀ fl, ((flying 0 (transfer .openRead none (some 11)) 31 base).bay 0).inFlight = some fl → fl.ticks < 32)
    ∧ (∀ n, n = 0 ∨ n = 1 →
       let s := updBay 0 (fun y => { y with timeouts := n })
         (flying 0 (transfer .write (some ⟨0, 3⟩) (some 10)) 32 (withLoan { held .sole with outstanding := 1 }))
       (s.bay 0).inFlight = some (fly (transfer .write (some ⟨0, 3⟩) (some 10)) 32 false) ∧ (s.loan 0).issue = 3
        ∧ (s.loan 0).state = .held ∧ (s.bay 0).state = .ready ∧ (s.bay 0).timeouts < 2)
    ∧ (let s := updBay 2 (fun y => { y with timeouts := 2, inFlight := some (fly (transfer .serviceRead none none) 32 false) }) base
       (s.bay 2).inFlight = some (fly (transfer .serviceRead none none) 32 false) ∧ (s.bay 2).state = .service
        ∧ (s.bay 2).timeouts = 2 ∧ (s.bay 2).queue = [] ∧ s.bayExtents 2 = []) := by
  refine ⟨?_, ?_, ?_, by decide⟩
  · refine forall_bay (P := fun y => ∀ fl, y.inFlight = some fl → fl.ticks < 31) ?_ ?_
    · exact fun b => forall_found ((by decide : ∀ b : Fin 24,
        ((flying 0 (transfer .openRead none (some 11)) 30 base).bay b.val).inFlight.all (fun fl => decide (fl.ticks < 31)) = true) b)
    · exact forall_found (by decide)
  · exact forall_found (by decide)
  · intro n h
    rcases h with rfl | rfl
    all_goals decide

/-- Bay links: an ABSENT bay; a bay that owes a SERVICE BAY and holds no extents. -/
theorem witness_bay_links :
    (base.bay 23).state = .absent
    ∧ (let s := updBay 2 (fun y => { y with state := .servicePending, serviceOwed := some (waiting 41 4095 3) }) base
       (s.bay 2).state ≠ .absent ∧ s.bayExtents 2 = [] ∧ (s.bay 2).queue = [] ∧ (s.bay 2).inFlight = none
        ∧ (s.bay 2).serviceOwed = some (waiting 41 4095 3)) := by decide

/-- B0, in this state, with the loan of node 5, its WRITE in flight and its READ queued, its UPGRADE entry, and an OPEN READ of node 5 queued. -/
def tied (st : BayState) : State :=
  updXl 11 (fun x => { x with openReads := 1 })
    (updBay 0 (fun y => { y with
        state := st, serviceOwed := if st = .ready then none else some (waiting 41 4095 3)
        queue := y.queue ++ [transfer .openRead none (some 11)], inFlight := y.inFlight.map (fun fl => { fl with ticks := 32 })
        timeouts := 2 })
      (upgrading (busyLoan (held .shared) 2)))

/-- The loss and the third timeout of that bay, READY and SERVICE_PENDING; a link-up report on a bay that is not ABSENT. -/
theorem witness_bay_tied (st : BayState) (h : st = .ready ∨ st = .servicePending) :
    BayTied (tied st) 0 ∧ ((tied st).bay 0).state = st ∧ ((tied st).bay 0).timeouts = 2
    ∧ (∃ fl, ((tied st).bay 0).inFlight = some fl ∧ 32 ≤ fl.ticks ∧ fl.transfer.handle = some ⟨0, 3⟩)
    ∧ (tied st).live ⟨0, 3⟩ = true ∧ ((tied st).loan 0).state ≠ .closing ∧ ∃ u, exec (.bayLinkDown 0) (tied st) = .next u := by
  have others : ∀ b : Fin 24, b.val ≠ 0 → ((tied st).bay b.val).state ≠ .servicePending := by
    rcases h with rfl | rfl <;> decide
  rcases h with rfl | rfl
  all_goals
    refine ⟨⟨by unfold State.tables; decide, by decide, by decide, ?_, ?_, ?_, ?_⟩, by decide, by decide, ⟨_, rfl, by decide, rfl⟩,
      by decide, by decide, ⟨_, rfl⟩⟩
    · intro c hc
      by_cases lt : c < 24
      · exact others ⟨c, lt⟩ hc
      · rw [(by simp [State.bay, lt] : (tied _).bay c = Bay.reset)]
        decide
    · intro x hx
      have queued : ∀ x ∈ ((tied .ready).bay 0).queue, (x.kind = .openRead → x.handle = none) ∧ (x.handle = none ∨ x.handle = some ⟨0, 3⟩) := by
        decide
      have hx : (x.kind = .openRead → x.handle = none) ∧ (x.handle = none ∨ x.handle = some ⟨0, 3⟩) := by
        rcases hx with hx | ⟨fl, e, rfl⟩
        · exact queued x hx
        · cases e
          decide
      refine ⟨hx.1, fun h e _ => ?_⟩
      rcases hx.2 with k | k
      · rw [k] at e; cases e
      · rw [k] at e; cases e; decide
    · intro n h _
      rw [only_slot (l := { held .shared with state := .upgrading, outstanding := 2 }) (by decide)] at h
      split at h
      · next e => subst e; decide
      · exact absurd rfl h
    · have heads : ∀ x ∈ (tied .ready).loans.extents, ∀ c ∈ x.2.queue, c.kind = .upgrade ⟨0, 3⟩ ∧ x.1 = 10 := by decide
      refine fun e _ => forall_key (t := (tied .ready).loans.extents) (P := fun e (x : ExtentLoans) => ∀ c ∈ x.queue, ∀ h,
        c.kind = .upgrade h → ((tied .ready).loan h.slot).extent = e) ?_ (fun _ c hc => absurd hc (List.not_mem_nil)) e
      intro x hx c hc h e
      obtain ⟨k, n⟩ := heads x hx c hc
      rw [k] at e
      cases e
      rw [n]
      decide

/-- The reading requests, each taken: slots 0 and 8191, absent and present extents, bays 0 and 23, known and unknown nodes. -/
theorem witness_reads :
    base.oneAuthority ∧ Taken base 0 10 (req 5 1) (legalPlain (req 5 1)) ∧ base.node 5 = some node5
    ∧ Taken base 1 33 auth (legalReadLoan auth) ∧ Taken base 1 33 { auth with slot := 8191 } (legalReadLoan { auth with slot := 8191 })
    ∧ (let f := { auth with extent := 4095 }; Taken base 1 34 f (legalByExtent f) ∧ base.extent (extentOf f) = none)
    ∧ (let f := { auth with extent := 10 }; Taken base 1 34 f (legalByExtent f) ∧ base.extent (extentOf f) = some ext10
        ∧ Taken base 1 46 f (legalByExtent f))
    ∧ Taken base 1 45 auth (legalByBay auth) ∧ Taken base 1 45 { auth with extent := 23 } (legalByBay { auth with extent := 23 })
    ∧ Taken base 1 49 auth (legalPlain auth) ∧ Taken base 1 50 auth (legalPlain auth)
    ∧ (let f := { auth with offset := 4095 }; Taken base 1 58 f (legalByNode f) ∧ base.nodeAfter 1 f (offsetOf f) ≠ none)
    ∧ (let f := { auth with offset := 1 }; Taken base 1 58 f (legalByNode f) ∧ base.nodeAfter 1 f (offsetOf f) = none)
    ∧ Taken base 1 63 auth (legalPlain auth) ∧ Taken base 1 67 auth (legalPlain auth) := by
  repeat' apply And.intro
  all_goals first | decide | exact base_one

/-- LENDING RESET of a machine that lends, and of one that does not. -/
theorem witness_lending_reset :
    (let s := withQueue [entry 6 2 .sole 1 9] (withLoan (held .sole))
     s.oneAuthority ∧ s.tables ∧ Taken s 1 68 auth (legalPlain auth))
    ∧ base.oneAuthority ∧ Taken base 1 68 auth (legalPlain auth)
    ∧ base.loans.table.all (fun x => decide (x.2.state = .free) && x.2.releaseOwed.isNone) = true
    ∧ (∀ e, (base.xl e).queue = []) ∧ base.loans.tableWait = []
    ∧ (∀ b, (base.bay b).queue = [] ∧ (base.bay b).inFlight = none ∧ (base.bay b).serviceOwed = none
        ∧ (base.bay b).state ≠ .servicePending)
    ∧ base.fences.held = [] ∧ base.watches = [] ∧ base.loader.commitOwed = none
    ∧ (∀ x ∈ base.roster, x.2.held = 0 ∧ x.2.waiting = 0) := by
  refine ⟨⟨⟨by decide, one_of (n := 4095) (by decide) (by decide)⟩, by unfold State.tables; decide, by unfold Taken; decide⟩,
    ⟨by decide, base_one⟩, by unfold Taken; decide, by decide, ?_, by decide, ?_, by decide, by decide, by decide, by decide⟩
  · exact forall_val (P := fun x : ExtentLoans => x.queue = []) (by decide) (by decide)
  · exact forall_bay (P := fun y => y.queue = [] ∧ y.inFlight = none ∧ y.serviceOwed = none ∧ y.state ≠ .servicePending)
      (by decide) (by decide)

/-- That node's loan and requests, an owed SERVICE BAY and an owed COMMIT LOAD in CHECKING. -/
def owing : State :=
  setLoader { opened.loader with state := .checking, commitOwed := some (waiting 39 4095 6) }
    (updBay 2 (fun y => { y with state := .servicePending, serviceOwed := some (waiting 41 4095 3) }) barred5)

/-- Every kind of request that waits: a claim, a queued transfer, one in flight, an owed SERVICE BAY, COMMIT LOAD and
release, a held request; each transfer of a loan stands at the bay of its extent. -/
theorem witness_reset_requests :
    owing.oneAuthority ∧ owing.tables ∧ Taken owing 1 68 auth (legalPlain auth) ∧ owing.loader.state ≠ .draining
    ∧ owing.openReadsPlain
    ∧ (∀ c ∈ (owing.xl 10).queue, AwaitsReply owing c.req) ∧ (∀ x ∈ (owing.bay 0).queue, AwaitsReply owing x.req)
    ∧ AwaitsReply owing (transfer .write (some ⟨0, 3⟩) (some 10)).req ∧ AwaitsReply owing (waiting 41 4095 3)
    ∧ AwaitsReply owing (waiting 39 4095 6) ∧ AwaitsReply owing (waiting 1 5 41)
    ∧ AwaitsReply (withLoan { held .sole with state := .closing, releaseOwed := some (waiting 4 5 40) }) (waiting 4 5 40)
    ∧ (∀ b x h, (x ∈ (owing.bay b).queue ∨ ∃ fl, (owing.bay b).inFlight = some fl ∧ fl.transfer = x) →
        x.handle = some h → owing.live h = true → owing.bayOf (owing.loan h.slot).extent = b) := by
  refine ⟨⟨by decide, one_of (n := 4095) (by decide) (by decide)⟩, by unfold State.tables; decide, by unfold Taken; decide,
    by decide, ?_, fun c hc => .inl ⟨10, c, hc, rfl⟩, fun x hx => .inr (.inl ⟨0, x, hx, rfl⟩),
    .inr (.inr (.inr (.inl ⟨0, _, rfl, by decide, rfl⟩))), .inr (.inr (.inr (.inr (.inl ⟨2, by decide⟩)))),
    .inr (.inr (.inr (.inr (.inr (.inl (by decide)))))), .inr (.inr (.inr (.inr (.inr (.inr ⟨_, List.mem_cons_self, rfl⟩))))),
    .inr (.inr (.inl ⟨0, by decide⟩)), ?_⟩
  · exact forall_bay (P := fun y => ∀ x ∈ y.queue, x.kind = .openRead → x.handle = none) (by decide) (by decide)
  · intro b x h hx hh _
    by_cases k : b = 0
    · subst k
      have queued : ∀ x ∈ (owing.bay 0).queue, x.handle = none ∨ x.handle = some ⟨0, 3⟩ := by decide
      have hx : x.handle = none ∨ x.handle = some ⟨0, 3⟩ := by
        rcases hx with hx | ⟨fl, e, rfl⟩
        · exact queued x hx
        · cases e
          decide
      rcases hx with k | k
      · rw [k] at hh; cases hh
      · rw [k] at hh; cases hh; decide
    · have none_there : ∀ b, b ≠ 0 → (owing.bay b).queue = [] ∧ (owing.bay b).inFlight = none := by
        intro b k
        by_cases lt : b < 24
        · exact (by decide : ∀ b : Fin 24, b.val ≠ 0 → (owing.bay b.val).queue = [] ∧ (owing.bay b.val).inFlight = none) ⟨b, lt⟩ k
        · have : owing.bay b = Bay.reset := by simp [State.bay, lt]
          rw [this]
          decide
      obtain ⟨q, f⟩ := none_there b k
      rcases hx with hx | ⟨fl, e, _⟩
      · rw [q] at hx; cases hx
      · rw [f] at e; cases e

end Sys2Proof.Tests
end

section
/-! PROOFS. The policy tables of the Extent Map: the programmed policy of R7, what each policy allows (R7, R8), and the
effective policy of R10, one lemma for each line of its table. -/

namespace Sys2Proof.Machine

/-! ### Programmed policy: the lines of R7's table -/

theorem ExtentRec.policy_eq_parked {r : ExtentRec} (hw : r.write = false) (hs : r.share = false)
    (ho : r.openR = false) : r.policy = .parked := by
  simp only [ExtentRec.policy, hw, hs, ho]

theorem ExtentRec.policy_eq_library {r : ExtentRec} (hw : r.write = false) (hs : r.share = false)
    (ho : r.openR = true) : r.policy = .library := by
  simp only [ExtentRec.policy, hw, hs, ho]

theorem ExtentRec.policy_eq_asset {r : ExtentRec} (hw : r.write = false) (hs : r.share = true)
    (ho : r.openR = false) : r.policy = .asset := by
  simp only [ExtentRec.policy, hw, hs, ho]

theorem ExtentRec.policy_eq_assetOpen {r : ExtentRec} (hw : r.write = false) (hs : r.share = true)
    (ho : r.openR = true) : r.policy = .assetOpen := by
  simp only [ExtentRec.policy, hw, hs, ho]

/-- With Write on, the Open setting has no effect. -/
theorem ExtentRec.policy_eq_priv {r : ExtentRec} (hw : r.write = true) (hs : r.share = false) :
    r.policy = .priv := by
  simp only [ExtentRec.policy, hw, hs]

theorem ExtentRec.policy_eq_output {r : ExtentRec} (hw : r.write = true) (hs : r.share = true) :
    r.policy = .output := by
  simp only [ExtentRec.policy, hw, hs]

/-! ### What a policy allows: the last two columns of R7's table -/

theorem Policy.allows_shared_iff {v : Policy} :
    v.allows .shared = true ↔ v = .asset ∨ v = .assetOpen ∨ v = .output := by
  cases v <;> simp [Policy.allows]

theorem Policy.allows_sole_iff {v : Policy} : v.allows .sole = true ↔ v = .priv ∨ v = .output := by
  cases v <;> simp [Policy.allows]

theorem Policy.allows_iff {v : Policy} {m : Mode} :
    v.allows m = true ↔ (v = .asset ∨ v = .assetOpen) ∧ m = .shared ∨ v = .priv ∧ m = .sole ∨ v = .output := by
  cases m with
  | shared => simp [Policy.allows_shared_iff, or_assoc]
  | sole => simp [Policy.allows_sole_iff]

theorem Policy.allowsOpenRead_iff {v : Policy} : v.allowsOpenRead = true ↔ v = .library ∨ v = .assetOpen := by
  cases v <;> simp [Policy.allowsOpenRead]

/-! ### Effective policy: the lines of R10's table -/

section effective
variable {s : State} {r : ExtentRec}

theorem effective_eq_bayDown (h : (s.bay r.bay).state = .absent ∨ (s.bay r.bay).state = .failed) :
    s.effective r = .closed .bayDown := by
  rcases h with h | h <;> simp only [State.effective, h]

theorem effective_eq_inService
    (h : (s.bay r.bay).state = .servicePending ∨ (s.bay r.bay).state = .service) :
    s.effective r = .closed .inService := by
  rcases h with h | h <;> simp only [State.effective, h]

/-- The capacity of a READY bay decides between the last two lines. -/
theorem effective_of_ready (h : (s.bay r.bay).state = .ready) :
    s.effective r =
      if (s.bay r.bay).capacity < r.base + r.size then .closed .beyondDisk else .lent r.policy := by
  simp only [State.effective, h]

theorem effective_eq_beyondDisk (h : (s.bay r.bay).state = .ready)
    (hc : (s.bay r.bay).capacity < r.base + 2 ^ r.k) : s.effective r = .closed .beyondDisk :=
  (effective_of_ready h).trans (if_pos hc)

theorem effective_eq_lent (h : (s.bay r.bay).state = .ready)
    (hc : r.base + 2 ^ r.k ≤ (s.bay r.bay).capacity) : s.effective r = .lent r.policy :=
  (effective_of_ready h).trans (if_neg (Nat.not_lt.mpr hc))

end effective

/-- Settles O24: R7's table by its settings, what each policy allows, and R10's table line by line. -/
theorem policyTables : Obligations.PolicyTables := by
  unfold Obligations.PolicyTables
  refine ⟨fun r => ?programmed, fun _ _ => Policy.allows_iff, fun _ => Policy.allowsOpenRead_iff,
    fun s r => ?effective⟩
  case programmed =>
    exact ⟨ExtentRec.policy_eq_parked, ExtentRec.policy_eq_library, ExtentRec.policy_eq_asset,
      ExtentRec.policy_eq_assetOpen, ExtentRec.policy_eq_priv, ExtentRec.policy_eq_output⟩
  case effective =>
    exact ⟨effective_eq_bayDown, effective_eq_inService, effective_eq_beyondDisk, effective_eq_lent⟩

end Sys2Proof.Machine
end

section
/-! PROOFS. CLOCK STOP and CLOCK RUN (R60): a frame that fails an ingress check, a management request of a render node,
the pending run order, and the tick that finds an order equal to the run state (R61). -/

namespace Sys2Proof.Machine

/-! ### Refusals at ingress -/

theorem setPort_setPort (p : PortId) (v w : Port) (s : State) : setPort p w (setPort p v s) = setPort p w s := by
  simp only [setPort, Vector.set_set]

/-- A refusal on a port that is UP in the round of the reservation joins that port's list and frees no tag (R161). -/
theorem refuseAtIngress_up {q : Req} {st : Status} {s : State} (up : (s.port q.port).up = true)
    (round : q.round = (s.port q.port).round) :
    refuseAtIngress q st s = pushReady q.port ⟨replyFrame s q st, false⟩ s := by
  unfold refuseAtIngress emit
  rw [if_pos (by simp [up, round])]

/-- A frame that the ingress checks refuse is answered with the status of the first that fails (R160). -/
theorem ingress_refused {s : State} {p : PortId} {code : Nat} {f : Frame} {legal : Bool} {st : Status}
    (take : Req → State → State) (up : (s.port p).up = true) (room : (s.port p).reservations < 448)
    (fails : s.ingressRefusal code f legal = some st) :
    RefusedAtIngress s (ingress p code f legal take s) p (s.refusalOf code f st) := by
  have full : ¬ Config.replyPlaces ≤ (s.port p).reservations := Nat.not_le.mpr room
  have here : (takeReservation p s).port p = { s.port p with reservations := (s.port p).reservations + 1 } :=
    port_setPort_same p _ s
  have refused : ingress p code f legal take s = refuseAtIngress (s.reqOf p code f) st (takeReservation p s) := by
    unfold ingress
    rw [if_pos up, if_neg full, fails]
  have pushed := refuseAtIngress_up (q := s.reqOf p code f) (st := st) (s := takeReservation p s)
    ((congrArg Port.up here).trans up) (congrArg Port.round here).symm
  rw [refused, pushed]
  show setPort p { (takeReservation p s).port p with
    egress := ((takeReservation p s).port p).egress ++ [⟨s.refusalOf code f st, false⟩] } (takeReservation p s) = _
  rw [here]
  exact setPort_setPort p _ _ s

/-- A management request of a render node fails the fourth check, where the first three pass (R160). -/
theorem ingressRefusal_notAuthority {s : State} {code : Nat} {f : Frame} {legal : Bool} {r : NodeRec}
    (management : isRenderCode code = false) (known : s.node f.node.toNat = some r) (unbarred : r.state ≠ .barred)
    (tag : r.tags.getLsbD f.tag.toNat = false) (render : r.role = .render) :
    s.ingressRefusal code f legal = some .notAuthority := by
  simp [State.ingressRefusal, known, unbarred, tag, management, render]

/-! ### The pending run order -/

/-- The reply to a request that is no loader request carries its status alone (R151). -/
theorem replyFrame_plain (u s : State) (p : PortId) {code : Nat} (f : Frame) (st : Status)
    (plain : isLoaderCode code = false) : replyFrame u (s.reqOf p code f) st = plainReply code f st := by
  simp [replyFrame, State.reqOf, plainReply, plain]

theorem clock_admitted (s : State) (p : PortId) (code : Nat) (f : Frame) : (s.admitted p code f).clock = s.clock := by
  simp only [State.admitted, admitReq_clock, takeReservation_clock]

/-- A clock request that is taken sets the order and nothing else of the clock, and is answered OK (R60). -/
theorem orderRun_taken {s : State} {p : PortId} {code : Nat} {f : Frame} {legal : Bool} (o : RunOrder)
    (plain : isLoaderCode code = false) (one : s.oneAuthority) (taken : Taken s p code f legal) :
    Done s (ingress p code f legal (orderRun o) s) p f (plainReply code f .ok) [.clock]
      ∧ (ingress p code f legal (orderRun o) s).clock = { s.clock with order := some o } := by
  rw [ingress_taken (orderRun o) taken]
  constructor
  case left =>
    have only : OnlyChanges [.ports, .roster, .events, .clock] (s.admitted p code f)
        (setClock { (s.admitted p code f).clock with order := some o } (s.admitted p code f)) := by
      intro b hb
      cases b <;> simp_all [Block.same]
    rw [← replyFrame_plain _ s p f .ok plain]
    exact done_of_reply (fields := id) taken (.inr one) (setClock_ports _ _) (setClock_roster _ _) (setClock_events _ _) only
  case right =>
    simp only [orderRun, reply_clock, setClock_clock, clock_admitted]

/-- What a tick does depends on the order only by the run state that follows from it (R61). -/
theorem execLeaseTick_order {c : Clock} {o o' : Option RunOrder}
    (h : Clock.runAfter { c with order := o } = Clock.runAfter { c with order := o' }) (s : State) :
    execLeaseTick (setClock { c with order := o } s) = execLeaseTick (setClock { c with order := o' } s) := by
  simp only [execLeaseTick, setClock_clock, h]
  rfl

/-! ### The two commands -/

theorem exec_clockStop (p : PortId) (f : Frame) (s : State) :
    exec (.clockStop p f) s = .next (ingress p 60 f (legalPlain f) (orderRun .stop) s) := rfl

theorem exec_clockRun (p : PortId) (f : Frame) (s : State) :
    exec (.clockRun p f) s = .next (ingress p 61 f (legalPlain f) (orderRun .run) s) := rfl

theorem exec_leaseTick (s : State) : exec .leaseTick s = execLeaseTick s := rfl

/-- Settles O19: each order by `orderRun_taken`, a render node's by the fourth ingress check, and the tick by the run
state after the order. -/
theorem clockStopAndRun : Obligations.ClockStopAndRun := by
  unfold Obligations.ClockStopAndRun
  refine ⟨fun s p f => ⟨fun one taken => ?stop, fun one taken => ?run, ?render⟩, fun s => ⟨fun running => ?inRun,
    fun stopped => ?inStop⟩⟩
  case stop => exact ⟨_, exec_clockStop p f s, orderRun_taken .stop rfl one taken⟩
  case run => exact ⟨_, exec_clockRun p f s, orderRun_taken .run rfl one taken⟩
  case render =>
    intro r known render unbarred tag up room
    exact ⟨⟨_, exec_clockStop p f s, ingress_refused _ up room (ingressRefusal_notAuthority rfl known unbarred tag render)⟩,
      ⟨_, exec_clockRun p f s, ingress_refused _ up room (ingressRefusal_notAuthority rfl known unbarred tag render)⟩⟩
  case inRun =>
    rw [exec_leaseTick, exec_leaseTick]
    exact execLeaseTick_order (c := s.clock) (o := some .run) (o' := none) running.symm s
  case inStop =>
    rw [exec_leaseTick, exec_leaseTick]
    exact execLeaseTick_order (c := s.clock) (o := some .stop) (o' := none) stopped.symm s

end Sys2Proof.Machine
end

section
/-! PROOFS. Which requests a fence matches: the overlap of the ranges (R103), the table of kinds (R105), and the enables,
which the test does not ask. -/

namespace Sys2Proof.Machine

/-- The higher of the two first blocks lies in both ranges, if any block does. -/
theorem exists_common_block_iff {first count base size : Nat} (hc : 1 ≤ count) (hs : 1 ≤ size) :
    (∃ x, first ≤ x ∧ x < first + count ∧ base ≤ x ∧ x ≤ base + size - 1) ↔
      first < base + size ∧ base < first + count := by
  constructor
  · rintro ⟨x, fromFirst, belowEnd, fromBase, toLast⟩
    omega
  · rintro ⟨startsBelow, baseBelow⟩
    exact ⟨max first base, by omega⟩

/-- The bounds that the model compares say that the fence and the request share a block (R103). -/
theorem Fence.overlaps_iff {v : Fence} {b first count : Nat} (hc : 1 ≤ count) :
    v.overlaps b first count = true ↔
      v.bay = b ∧ ∃ x, first ≤ x ∧ x < first + count ∧ v.base ≤ x ∧ x ≤ v.base + 2 ^ v.k - 1 := by
  rw [exists_common_block_iff hc Nat.one_le_two_pow]
  simp only [Fence.overlaps, Bool.and_eq_true, decide_eq_true_eq, and_assoc]

/-- The table of R105, one line for each fence kind. -/
theorem FenceKind.covers_iff {fk : FenceKind} {k : FencedKind} :
    fk.covers k = true ↔ fk = .soleClaim ∧ k = .soleClaim ∨ fk = .write ∧ k = .write ∨ fk = .any := by
  cases fk with
  | soleClaim => cases k <;> simp [FenceKind.covers]
  | write => cases k <;> simp [FenceKind.covers]
  | any => simp [FenceKind.covers]

theorem Fence.matches_iff {v : Fence} {k : FencedKind} {b first count : Nat} :
    v.matches k b first count = true ↔ v.overlaps b first count = true ∧ v.kind.covers k = true :=
  Bool.and_eq_true_iff

theorem Fence.matches_setEnables (v : Fence) (le ge : Bool) (k : FencedKind) (b first count : Nat) :
    ({ v with localEnable := le, globalEnable := ge } : Fence).matches k b first count = v.matches k b first count := rfl

/-- Settles O40: the overlap by `Fence.overlaps_iff`, the kinds by `FenceKind.covers_iff`. -/
theorem fenceMatching : Obligations.FenceMatching := by
  unfold Obligations.FenceMatching
  intro v k b first count hc
  refine ⟨?conditions, fun le ge => Fence.matches_setEnables v le ge k b first count⟩
  case conditions => rw [Fence.matches_iff, Fence.overlaps_iff hc, FenceKind.covers_iff]

end Sys2Proof.Machine
end

section
/-! PROOFS. The frame tests (R158), and what a malformed frame does: the occurrence that it raises is taken (R166), and a
notice test may follow (R167). -/

namespace Sys2Proof.Machine

/-! ### The notice test, whoever the authority is -/

theorem repeat_of_fixed {f : State → State} {s : State} (fixed : f s = s) (n : Nat) : Nat.repeat f n s = s := by
  induction n with
  | zero => rfl
  | succ n ih => exact (congrArg f ih).trans fixed

theorem noticeTest_idle {s : State} (h : ∀ n r, s.authority = some (n, r) → r.learned = none) : noticeTest s = s :=
  repeat_of_fixed (noticeOnce_idle h) 16

/-- A notice test acts at one port, the authority's learned port where there is one. -/
theorem noticeTest_somewhere (s : State) : ∃ p, NoticesAt p s (noticeTest s) := by
  by_cases learned : ∃ n r p, s.authority = some (n, r) ∧ r.learned = some p
  case pos =>
    obtain ⟨n, r, p, isAuthority, hasPort⟩ := learned
    exact ⟨p, noticeTest_at isAuthority hasPort⟩
  case neg =>
    have unlearned : ∀ n r, s.authority = some (n, r) → r.learned = none := fun n r ha =>
      Option.eq_none_iff_forall_ne_some.mpr fun p hp => learned ⟨n, r, p, ha, hp⟩
    rw [noticeTest_idle unlearned]
    exact ⟨0, .refl 0 s⟩

theorem NoticesAt.noticesOnly {p : PortId} {s t : State} (h : NoticesAt p s t) : NoticesOnly s t := by
  intro q
  by_cases here : q = p
  case pos => exact here ▸ h.here
  case neg => exact ⟨[], by simp, by simp [h.others q here]⟩

theorem NoticesOnly.refl (s : State) : NoticesOnly s s := (NoticesAt.refl 0 s).noticesOnly

/-- Noticed marks aside, a notice test leaves every event record as it was. -/
theorem NoticedOnly.flag_detail {s t : State} (h : NoticedOnly s t) (k : Nat) :
    (t.event k).flag = (s.event k).flag ∧ (t.event k).detail = (s.event k).detail := by
  obtain ⟨m, marked⟩ := h.2 k
  rw [marked]
  exact ⟨rfl, rfl⟩

/-! ### An occurrence is taken (R166) -/

/-- The state in which an occurrence has set its clear flag, before the notice test. -/
def State.flagged (s : State) (k : EventKind) (d : Detail) : State :=
  setEvent k.num ⟨true, false, (s.event k.num).level, some d⟩ s

theorem event_flagged (s : State) (k : EventKind) (d : Detail) :
    (s.flagged k d).event k.num = ⟨true, false, (s.event k.num).level, some d⟩ :=
  (event_setEvent k.num k.num _ s (num_lt k)).trans (if_pos rfl)

theorem flagged_onlyChanges (s : State) (k : EventKind) (d : Detail) : OnlyChanges [.events] s (s.flagged k d) := by
  intro b hb
  cases b
  case events => simp at hb
  all_goals rfl

theorem raise_of_flag {k : EventKind} {s : State} (d : Detail) (set : (s.event k.num).flag = true) : raise k d s = s :=
  if_pos set

theorem raise_of_clear {k : EventKind} {s : State} (d : Detail) (clear : (s.event k.num).flag = false) :
    raise k d s =
      if s.events.mask < (s.event k.num).level then noticeTest (s.flagged k d) else s.flagged k d := by
  have qualifies : EventRec.qualifies ⟨true, false, (s.event k.num).level, some d⟩ s.events.mask = true ↔
      s.events.mask < (s.event k.num).level := decide_eq_true_iff
  unfold raise
  rw [if_neg (by simp [clear])]
  exact ite_congr (propext qualifies) (fun _ => rfl) (fun _ => rfl)

/-- All that an occurrence can do: a set flag keeps everything, and a clear flag is set, with EVENT notices behind it. -/
theorem raise_cases (k : EventKind) (d : Detail) (s : State) :
    (s.event k.num).flag = true ∧ raise k d s = s
      ∨ (s.event k.num).flag = false ∧ ∃ p, NoticesAt p (s.flagged k d) (raise k d s) := by
  cases flag : (s.event k.num).flag with
  | true => exact .inl ⟨rfl, raise_of_flag d flag⟩
  | false =>
    rw [raise_of_clear d flag]
    by_cases level : s.events.mask < (s.event k.num).level
    case pos => rw [if_pos level]; exact .inr ⟨rfl, noticeTest_somewhere _⟩
    case neg => rw [if_neg level]; exact .inr ⟨rfl, 0, .refl 0 _⟩

theorem raise_recorded (k : EventKind) (d : Detail) (s : State) : Recorded s (raise k d s) k d := by
  obtain ⟨set, same⟩ | ⟨clear, p, noticed⟩ := raise_cases k d s
  · rw [same]
    exact ⟨set, (if_pos set).symm⟩
  · obtain ⟨flag, detail⟩ := noticed.marks.flag_detail k.num
    rw [event_flagged] at flag detail
    exact ⟨flag, by rw [detail, clear]; rfl⟩

/-- The flag's record stands in the Event Unit alone, so that the ports see the notices alone. -/
theorem raise_noticesOnly (k : EventKind) (d : Detail) (s : State) : NoticesOnly s (raise k d s) := by
  obtain ⟨_, same⟩ | ⟨_, p, noticed⟩ := raise_cases k d s
  · rw [same]
    exact .refl s
  · exact noticed.noticesOnly

theorem raise_onlyChanges (k : EventKind) (d : Detail) (s : State) :
    OnlyChanges [.ports, .events] s (raise k d s) := by
  obtain ⟨_, same⟩ | ⟨_, p, noticed⟩ := raise_cases k d s
  · rw [same]
    exact .refl _ s
  · exact ((flagged_onlyChanges s k d).mono (by simp)).trans noticed.only

/-! ### The frame tests (R158) -/

/-- R158's four lines, the last one with its two cases. -/
theorem frameOk_eq_false_iff {payload : List Byte} :
    frameOk payload = false ↔
      payload.length < 32 ∨ field32 payload 28 ≠ headerCheck payload ∨ byteAt payload 0 ≠ 1
        ∨ 8192 < (field16 payload 26).toNat ∨ payload.length < 32 + (field16 payload 26).toNat := by
  simp only [frameOk, Bool.and_eq_false_iff, decide_eq_false_iff_not, Nat.not_le, or_assoc]
  rfl

theorem decodeFrame_of_frameOk (p : PortId) {payload : List Byte} (passes : frameOk payload = true) :
    decodeFrame p payload = requestOf p (byteAt payload 2) (parseFrame payload) := if_pos passes

theorem decodeFrame_of_malformed (p : PortId) {payload : List Byte} (fails : frameOk payload = false) :
    decodeFrame p payload = .malformedFrame p payload := if_neg (by simp [fails])

/-- No reservation and no reply: on an UP port the occurrence is all that R158 makes of a malformed frame. -/
theorem exec_malformedFrame_up {s : State} {p : PortId} {payload : List Byte} (up : (s.port p).up = true)
    (fails : frameOk payload = false) :
    exec (.malformedFrame p payload) s = .next (raise .badFrame ⟨0, p.val, 0⟩ s) := by
  show execMalformedFrame p payload s = _
  simp [execMalformedFrame, up, fails]

/-- Settles O12: the tests by `frameOk_eq_false_iff`, and a malformed frame by what an occurrence does. -/
theorem frameTests : Obligations.FrameTests := by
  unfold Obligations.FrameTests
  refine ⟨fun payload => frameOk_eq_false_iff, fun p payload => decodeFrame_of_frameOk p,
    fun s p payload fails => ⟨decodeFrame_of_malformed p fails, fun up => ?discarded⟩⟩
  case discarded =>
    exact ⟨_, exec_malformedFrame_up up fails, raise_recorded _ _ s, raise_noticesOnly _ _ s, raise_onlyChanges _ _ s⟩

end Sys2Proof.Machine
end

section
/-! PROOFS. Occurrences and CLEAR EVENTS: what becomes of a clear and of a set flag (R166), and what the clearing of a
set of kinds leaves (R169). -/

namespace Sys2Proof.Machine

/-! ### An occurrence on a clear and on a set flag (R166) -/

theorem event_flagged_ne {k : EventKind} {j : Nat} (other : j ≠ k.num) (d : Detail) (s : State) :
    (s.flagged k d).event j = s.event j :=
  (event_setEvent k.num j _ s (num_lt k)).trans (if_neg other)

/-- An occurrence on a clear flag by the level of its record: above the mask level a notice test follows (R166). -/
theorem raise_of_clear_by_level {k : EventKind} {s : State} (d : Detail) (clear : (s.event k.num).flag = false) :
    if s.events.mask < (s.event k.num).level then raise k d s = noticeTest (s.flagged k d)
    else raise k d s = s.flagged k d := by
  rw [raise_of_clear d clear]
  split
  case isTrue => rfl
  case isFalse => rfl

/-- Settles O15: a clear flag by `raise_of_clear`, where the state before the notice test is `State.flagged`; a set flag
by `raise_of_flag`. -/
theorem occurrenceTaken : Obligations.OccurrenceTaken := by
  unfold Obligations.OccurrenceTaken
  intro k d s
  refine ⟨raise_of_flag d, fun clear => ⟨s.flagged k d, ?_⟩⟩
  exact ⟨event_flagged s k d, fun j other => event_flagged_ne other d s, rfl, flagged_onlyChanges s k d,
    raise_of_clear d clear⟩

/-! ### The reply of a request that changed its block -/

/-- A frame that holds its reservation, with no reply yet, is answered when its reply joins the port's list (R161). -/
theorem replied_of_unanswered {s u : State} {p : PortId} (waits : Unanswered s u p) (o : OutFrame) :
    Replied s (pushReady p ⟨o, true⟩ u) p o := by
  obtain ⟨others, ns, notices, here⟩ := waits
  refine ⟨fun q hq => ?_, ns, notices, ?_⟩
  · exact ((port_setPort p q _ u).trans (if_neg hq)).trans (others q hq)
  · rw [pushReady, port_setPort_same, here]

theorem Unanswered.of_ports {s u v : State} {p : PortId} (h : Unanswered s u p) (ports : v.ports = u.ports) :
    Unanswered s v p := by
  have port : v.port = u.port := funext fun q => by simp only [State.port, ports]
  unfold Unanswered
  rw [port]
  exact h

theorem pushReady_onlyChanges (p : PortId) (x : Ready) (s : State) : OnlyChanges [.ports] s (pushReady p x s) := by
  intro b hb
  cases b
  case ports => simp at hb
  all_goals rfl

theorem setEvents_onlyChanges (v : EventUnit) (s : State) : OnlyChanges [.events] s (setEvents v s) := by
  intro b hb
  cases b
  case events => simp at hb
  all_goals rfl

/-- The reply to an admitted request, no loader request, whose block's part left the ports alone (R161). -/
theorem reply_eq_pushReady {s u : State} {p : PortId} {code : Nat} {f : Frame} {legal : Bool} (st : Status)
    (plain : isLoaderCode code = false) (one : s.oneAuthority) (taken : Taken s p code f legal)
    (ports : u.ports = (s.admitted p code f).ports) :
    reply (s.reqOf p code f) st u = pushReady p ⟨plainReply code f st, true⟩ u := by
  obtain ⟨up, round⟩ := up_admitted taken (.inr one)
  have here : u.port p = (s.admitted p code f).port p := by simp only [State.port, ports]
  rw [← here] at up round
  rw [← replyFrame_plain u s p f st plain]
  exact replyWith_up (q := s.reqOf p code f) (fields := id) up round.symm

/-! ### Clearing a set of kinds (R169) -/

/-- The state in which the kinds of the set are cleared, before the reply. -/
def State.eventsCleared (s : State) (kinds : BitVec 16) : State :=
  setEvents { s.events with
    records := Vector.ofFn (fun i =>
      if kinds.getLsbD i.val then (s.event i.val).cleared else s.event i.val) } s

theorem eventsCleared_ports (s : State) (kinds : BitVec 16) : (s.eventsCleared kinds).ports = s.ports :=
  setEvents_ports s _

theorem eventsCleared_node (s : State) (kinds : BitVec 16) (n : Nat) : (s.eventsCleared kinds).node n = s.node n :=
  setEvents_node s _ n

theorem eventsCleared_onlyChanges (s : State) (kinds : BitVec 16) : OnlyChanges [.events] s (s.eventsCleared kinds) :=
  setEvents_onlyChanges _ s

theorem clearEvents_eq (kinds : BitVec 16) (q : Req) (s : State) :
    clearEvents kinds q s = reply q .ok (s.eventsCleared kinds) := rfl

/-- Each record is cleared or kept as its bit of the set says; beyond the sixteen kinds no bit is set. -/
theorem event_eventsCleared (s : State) (kinds : BitVec 16) (k : Nat) :
    (s.eventsCleared kinds).event k = if kinds.getLsbD k then (s.event k).cleared else s.event k := by
  by_cases kind : k < 16
  case pos => simp [State.eventsCleared, State.event, kind]
  case neg => simp [State.eventsCleared, State.event, kind, BitVec.getLsbD_of_ge kinds k (Nat.not_lt.mp kind)]

theorem exec_clearEvents (p : PortId) (f : Frame) (s : State) :
    exec (.clearEvents p f) s = .next (ingress p 66 f (legalPlain f) (clearEvents f.extent) s) := rfl

/-- CLEAR EVENTS that is taken clears its set on the admitted state, and its OK joins the port's list. -/
theorem exec_clearEvents_taken {s : State} {p : PortId} {f : Frame} (one : s.oneAuthority)
    (taken : Taken s p 66 f (legalPlain f)) :
    exec (.clearEvents p f) s =
      .next (pushReady p ⟨plainReply 66 f .ok, true⟩ ((s.admitted p 66 f).eventsCleared f.extent)) := by
  rw [exec_clearEvents, ingress_taken _ taken, clearEvents_eq,
    reply_eq_pushReady .ok rfl one taken (eventsCleared_ports _ _)]

/-- Settles O18: the state after the command by `exec_clearEvents_taken`, its records by `event_eventsCleared`, and the
next occurrence of a kind that was cleared by `raise_of_clear_by_level`. -/
theorem clearEvents_spec : Obligations.ClearEvents := by
  unfold Obligations.ClearEvents
  intro s p f one taken
  obtain ⟨waits, _, admission⟩ := admitted_spec taken (.inr one)
  have inSet : ∀ k, f.extent.getLsbD k = true →
      ((s.admitted p 66 f).eventsCleared f.extent).event k = ((s.admitted p 66 f).event k).cleared := fun k bit =>
    (event_eventsCleared _ _ k).trans (if_pos bit)
  have outside : ∀ k, f.extent.getLsbD k = false →
      ((s.admitted p 66 f).eventsCleared f.extent).event k = (s.admitted p 66 f).event k := fun k bit =>
    (event_eventsCleared _ _ k).trans (if_neg (by simp [bit]))
  refine ⟨_, exec_clearEvents_taken one taken, ?reply, ?roster, ?frame, rfl, fun k _ => inSet k, outside, ?next⟩
  case reply => exact replied_of_unanswered (waits.of_ports (eventsCleared_ports _ _)) _
  case roster =>
    intro n
    rw [pushReady_node, eventsCleared_node, node_admitted]
  case frame =>
    have cleared := (eventsCleared_onlyChanges (s.admitted p 66 f) f.extent).mono
      (cs := [.ports, .roster, .events]) (by simp)
    exact admission.trans (cleared.trans ((pushReady_onlyChanges _ _ _).mono (by simp)))
  case next =>
    intro kind d bit
    exact raise_of_clear_by_level d (congrArg EventRec.flag (inSet kind.num bit))

end Sys2Proof.Machine
end
